-- ==== Sys2Proof/Word.lean ====
section
/-! DEFINITION. The word types of the CHIP-8 core (00_scope.md R8, R9): all values are unsigned. -/

namespace Sys2Proof

/-- A byte: 8 bits, unsigned (R8, R170). -/
abbrev Byte := BitVec 8

/-- A word: 16 bits (R8). PC, I, a stack entry and an opcode are words (R24, R26, R27, R80). -/
abbrev Word := BitVec 16

/-- `Addr` of the document: a 12-bit address, the type of the nnn field only (R13, 90_conflicts.md C10). -/
abbrev Addr := BitVec 12

/-- The address recorded in FAULT: 17 bits (R37). -/
abbrev FaultAddr := BitVec 17

/-- A general register's index: every one of the 16 values of a 4-bit field names a register (R21). -/
abbrev Reg := Fin 16

/-- A key of the keypad, 0x0 to 0xF (R35). -/
abbrev Key := Fin 16

/-- The low nibble of an opcode as Dxyn uses it: a row count 0 to 15 (R82). -/
abbrev RowCount := Fin 16

end Sys2Proof
end

