-- ==== Sys2Proof/Syntax.lean ====
section
/-! DEFINITION. The 35 instructions (30_encoding.md R84), one constructor per row of spec/opcode_table.json, named after
the document's variants. Field letters are R81's: `x`, `y` registers, `kk` byte, `nnn` address, `n` row count. -/

namespace Sys2Proof

inductive Instr where
  /-- 00E0, R121. -/
  | clear
  /-- 00EE Return, R141. -/
  | ret
  /-- 0nnn, R142. -/
  | sys (nnn : Addr)
  /-- 1nnn, R143. -/
  | jump (nnn : Addr)
  /-- 2nnn, R145. -/
  | call (nnn : Addr)
  /-- 3xkk, R147. -/
  | skipEqualOperand (x : Reg) (kk : Byte)
  /-- 4xkk, R148. -/
  | skipNotEqualOperand (x : Reg) (kk : Byte)
  /-- 5xy0, R149. -/
  | skipEqual (x y : Reg)
  /-- 6xkk, R171. -/
  | loadOperand (x : Reg) (kk : Byte)
  /-- 7xkk, R172. -/
  | addOperand (x : Reg) (kk : Byte)
  /-- 8xy0, R173. -/
  | load (x y : Reg)
  /-- 8xy1, R174. -/
  | or (x y : Reg)
  /-- 8xy2, R175. -/
  | and (x y : Reg)
  /-- 8xy3, R176. -/
  | xor (x y : Reg)
  /-- 8xy4, R178. -/
  | add (x y : Reg)
  /-- 8xy5, R179. -/
  | sub (x y : Reg)
  /-- 8xy6, R180. -/
  | shiftRight (x y : Reg)
  /-- 8xy7, R181. -/
  | subNegated (x y : Reg)
  /-- 8xyE, R182. -/
  | shiftLeft (x y : Reg)
  /-- 9xy0, R150. -/
  | skipNotEqual (x y : Reg)
  /-- Annn, R201. -/
  | loadI (nnn : Addr)
  /-- Bnnn, R151. -/
  | longJump (nnn : Addr)
  /-- Cxkk, R183. -/
  | random (x : Reg) (kk : Byte)
  /-- Dxyn, R125. -/
  | draw (x y : Reg) (n : RowCount)
  /-- Ex9E, R232. -/
  | skipKeyPressed (x : Reg)
  /-- ExA1, R233. -/
  | skipKeyNotPressed (x : Reg)
  /-- Fx07, R234. -/
  | loadRegisterDelayTimer (x : Reg)
  /-- Fx0A, R235. -/
  | loadKey (x : Reg)
  /-- Fx15, R237. -/
  | loadDelayTimerRegister (x : Reg)
  /-- Fx18, R238. -/
  | loadSoundTimerRegister (x : Reg)
  /-- Fx1E, R202. -/
  | addI (x : Reg)
  /-- Fx29, R203. -/
  | loadSprite (x : Reg)
  /-- Fx33, R205. -/
  | loadBinaryCodedDecimal (x : Reg)
  /-- Fx55, R206. -/
  | loadMemoryRegisters (x : Reg)
  /-- Fx65, R207. -/
  | loadRegistersMemory (x : Reg)
  deriving DecidableEq, Repr

end Sys2Proof
end

