-- ==== Sys2Proof/WellFormed.lean ====
section
/-! DEFINITION. Which terms of `Instr` some word of the machine stands for. The fields' types already hold every operand
in the range its encoding gives it (R81); the one check left is the 0 group's precedence (30_encoding.md R86): the words
0x00E0 and 0x00EE are Clear and Return, so Sys covers the other 4094 words and no other nnn is shut out. -/

namespace Sys2Proof

/-- R86: `sys 0x0E0` and `sys 0x0EE` have no word of their own. -/
def Instr.wellFormed : Instr → Bool
  | .sys nnn => nnn != 0x0E0#12 && nnn != 0x0EE#12
  | .clear | .ret => true
  | .jump _ | .call _ | .loadI _ | .longJump _ => true
  | .skipEqualOperand _ _ | .skipNotEqualOperand _ _ | .loadOperand _ _ | .addOperand _ _ | .random _ _ => true
  | .skipEqual _ _ | .skipNotEqual _ _ | .load _ _ | .or _ _ | .and _ _ | .xor _ _ => true
  | .add _ _ | .sub _ _ | .shiftRight _ _ | .subNegated _ _ | .shiftLeft _ _ => true
  | .draw _ _ _ => true
  | .skipKeyPressed _ | .skipKeyNotPressed _ => true
  | .loadRegisterDelayTimer _ | .loadKey _ | .loadDelayTimerRegister _ | .loadSoundTimerRegister _ => true
  | .addI _ | .loadSprite _ | .loadBinaryCodedDecimal _ | .loadMemoryRegisters _ | .loadRegistersMemory _ => true

end Sys2Proof
end

