-- ==== Sys2Proof/Decode.lean ====
section
/-! DEFINITION. Decoding (30_encoding.md R80 to R89): a total function from words, and from bytes, to an instruction or a
refusal by name; after it the encoder (R91), written from the same table R84. -/

namespace Sys2Proof

/-- Why a decoding fails. -/
inductive DecodeError where
  /-- `UnknownInstruction`: the word is illegal (R87). -/
  | unknownInstruction
  /-- Fewer than the two bytes of an instruction are there (R80); a Step never sees it, its fetch is of two bytes. -/
  | truncated
  deriving DecidableEq, Repr

/-! ### Fields of an opcode (R81) -/

/-- `op` = w[15:12]. -/
def opField (w : Word) : BitVec 4 := w.extractLsb' 12 4

/-- `x` = w[11:8]. -/
def xField (w : Word) : Reg := Fin.ofNat 16 (w.extractLsb' 8 4).toNat

/-- `y` = w[7:4]. -/
def yField (w : Word) : Reg := Fin.ofNat 16 (w.extractLsb' 4 4).toNat

/-- `n` = w[3:0]. -/
def nField (w : Word) : RowCount := Fin.ofNat 16 (w.extractLsb' 0 4).toNat

/-- `kk` = w[7:0]. -/
def kkField (w : Word) : Byte := w.extractLsb' 0 8

/-- `nnn` = w[11:0], `Addr(w)` of R13. -/
def nnnField (w : Word) : Addr := w.extractLsb' 0 12

/-! ### The decoder (R85) -/

/-- The 0 group: the two exact words win over Sys (R86). -/
def decodeGroup0 (w : Word) : Instr :=
  if w = 0x00E0#16 then .clear else if w = 0x00EE#16 then .ret else .sys (nnnField w)

/-- The 8 group, by w[3:0]. -/
def decodeGroup8 (x y : Reg) (n : Nat) : Except DecodeError Instr :=
  match n with
  | 0x0 => .ok (.load x y)
  | 0x1 => .ok (.or x y)
  | 0x2 => .ok (.and x y)
  | 0x3 => .ok (.xor x y)
  | 0x4 => .ok (.add x y)
  | 0x5 => .ok (.sub x y)
  | 0x6 => .ok (.shiftRight x y)
  | 0x7 => .ok (.subNegated x y)
  | 0xE => .ok (.shiftLeft x y)
  | _ => .error .unknownInstruction

/-- The E group, by w[7:0]. -/
def decodeGroupE (x : Reg) (kk : Nat) : Except DecodeError Instr :=
  match kk with
  | 0x9E => .ok (.skipKeyPressed x)
  | 0xA1 => .ok (.skipKeyNotPressed x)
  | _ => .error .unknownInstruction

/-- The F group, by w[7:0]. -/
def decodeGroupF (x : Reg) (kk : Nat) : Except DecodeError Instr :=
  match kk with
  | 0x07 => .ok (.loadRegisterDelayTimer x)
  | 0x0A => .ok (.loadKey x)
  | 0x15 => .ok (.loadDelayTimerRegister x)
  | 0x18 => .ok (.loadSoundTimerRegister x)
  | 0x1E => .ok (.addI x)
  | 0x29 => .ok (.loadSprite x)
  | 0x33 => .ok (.loadBinaryCodedDecimal x)
  | 0x55 => .ok (.loadMemoryRegisters x)
  | 0x65 => .ok (.loadRegistersMemory x)
  | _ => .error .unknownInstruction

/-- `decode(w)` of R85: every word is an instruction or `UnknownInstruction`. -/
def decodeWord (w : Word) : Except DecodeError Instr :=
  match (opField w).toNat with
  | 0x0 => .ok (decodeGroup0 w)
  | 0x1 => .ok (.jump (nnnField w))
  | 0x2 => .ok (.call (nnnField w))
  | 0x3 => .ok (.skipEqualOperand (xField w) (kkField w))
  | 0x4 => .ok (.skipNotEqualOperand (xField w) (kkField w))
  | 0x5 => if nField w = 0 then .ok (.skipEqual (xField w) (yField w)) else .error .unknownInstruction
  | 0x6 => .ok (.loadOperand (xField w) (kkField w))
  | 0x7 => .ok (.addOperand (xField w) (kkField w))
  | 0x8 => decodeGroup8 (xField w) (yField w) (nField w).val
  | 0x9 => if nField w = 0 then .ok (.skipNotEqual (xField w) (yField w)) else .error .unknownInstruction
  | 0xA => .ok (.loadI (nnnField w))
  | 0xB => .ok (.longJump (nnnField w))
  | 0xC => .ok (.random (xField w) (kkField w))
  | 0xD => .ok (.draw (xField w) (yField w) (nField w))
  | 0xE => decodeGroupE (xField w) (kkField w).toNat
  -- 0xF, the one value of four bits that is left
  | _ => decodeGroupF (xField w) (kkField w).toNat

/-- The opcode word of two bytes, the byte at the lower address in bits 15 to 8 (20_memory.md R52). -/
def opcodeOfBytes (hi lo : Byte) : Word := hi ++ lo

/-- Decoding of bytes as they lie in memory, total: the instruction and the bytes after it, or a refusal by name. -/
def decode : List Byte → Except DecodeError (Instr × List Byte)
  | hi :: lo :: rest =>
    match decodeWord (opcodeOfBytes hi lo) with
    | .ok i => .ok (i, rest)
    | .error e => .error e
  | _ => .error .truncated

/-! ### The encoder (R84, R91) -/

/-- A register index or a row count as the four bits of its field. -/
def nibbleBits (r : Fin 16) : BitVec 4 := BitVec.ofNat 4 r.val

/-- Format A of R81: `oooo aaaa aaaa aaaa`. -/
def formatA (op : BitVec 4) (nnn : Addr) : Word := op ++ nnn

/-- Format XK of R81: `oooo xxxx kkkk kkkk`; format X is the one whose low byte is fixed. -/
def formatXK (op : BitVec 4) (x : Reg) (kk : Byte) : Word := (op ++ nibbleBits x) ++ kk

/-- Formats XY and XYN of R81: `oooo xxxx yyyy nnnn`. -/
def formatXYN (op : BitVec 4) (x y : Reg) (n : BitVec 4) : Word := (op ++ nibbleBits x) ++ (nibbleBits y ++ n)

/-- The word of an instruction, row by row of R84. -/
def encode : Instr → Word
  | .clear => 0x00E0#16
  | .ret => 0x00EE#16
  | .sys nnn => formatA 0x0#4 nnn
  | .jump nnn => formatA 0x1#4 nnn
  | .call nnn => formatA 0x2#4 nnn
  | .skipEqualOperand x kk => formatXK 0x3#4 x kk
  | .skipNotEqualOperand x kk => formatXK 0x4#4 x kk
  | .skipEqual x y => formatXYN 0x5#4 x y 0x0#4
  | .loadOperand x kk => formatXK 0x6#4 x kk
  | .addOperand x kk => formatXK 0x7#4 x kk
  | .load x y => formatXYN 0x8#4 x y 0x0#4
  | .or x y => formatXYN 0x8#4 x y 0x1#4
  | .and x y => formatXYN 0x8#4 x y 0x2#4
  | .xor x y => formatXYN 0x8#4 x y 0x3#4
  | .add x y => formatXYN 0x8#4 x y 0x4#4
  | .sub x y => formatXYN 0x8#4 x y 0x5#4
  | .shiftRight x y => formatXYN 0x8#4 x y 0x6#4
  | .subNegated x y => formatXYN 0x8#4 x y 0x7#4
  | .shiftLeft x y => formatXYN 0x8#4 x y 0xE#4
  | .skipNotEqual x y => formatXYN 0x9#4 x y 0x0#4
  | .loadI nnn => formatA 0xA#4 nnn
  | .longJump nnn => formatA 0xB#4 nnn
  | .random x kk => formatXK 0xC#4 x kk
  | .draw x y n => formatXYN 0xD#4 x y (nibbleBits n)
  | .skipKeyPressed x => formatXK 0xE#4 x 0x9E#8
  | .skipKeyNotPressed x => formatXK 0xE#4 x 0xA1#8
  | .loadRegisterDelayTimer x => formatXK 0xF#4 x 0x07#8
  | .loadKey x => formatXK 0xF#4 x 0x0A#8
  | .loadDelayTimerRegister x => formatXK 0xF#4 x 0x15#8
  | .loadSoundTimerRegister x => formatXK 0xF#4 x 0x18#8
  | .addI x => formatXK 0xF#4 x 0x1E#8
  | .loadSprite x => formatXK 0xF#4 x 0x29#8
  | .loadBinaryCodedDecimal x => formatXK 0xF#4 x 0x33#8
  | .loadMemoryRegisters x => formatXK 0xF#4 x 0x55#8
  | .loadRegistersMemory x => formatXK 0xF#4 x 0x65#8

/-- The high byte of a word, which lies at the lower address (R52). -/
def highByte (w : Word) : Byte := w.extractLsb' 8 8

/-- The low byte of a word. -/
def lowByte (w : Word) : Byte := w.extractLsb' 0 8

/-- The bytes of an instruction in memory order (R52, R80). -/
def encodeBytes (i : Instr) : List Byte := [highByte (encode i), lowByte (encode i)]

/-! ### The opcode map as data (R84) -/

/-- `match` and `mask` of the row of R84 that an instruction belongs to. -/
def opcodeRow : Instr → Word × Word
  | .clear => (0x00E0#16, 0xFFFF#16)
  | .ret => (0x00EE#16, 0xFFFF#16)
  | .sys _ => (0x0000#16, 0xF000#16)
  | .jump _ => (0x1000#16, 0xF000#16)
  | .call _ => (0x2000#16, 0xF000#16)
  | .skipEqualOperand _ _ => (0x3000#16, 0xF000#16)
  | .skipNotEqualOperand _ _ => (0x4000#16, 0xF000#16)
  | .skipEqual _ _ => (0x5000#16, 0xF00F#16)
  | .loadOperand _ _ => (0x6000#16, 0xF000#16)
  | .addOperand _ _ => (0x7000#16, 0xF000#16)
  | .load _ _ => (0x8000#16, 0xF00F#16)
  | .or _ _ => (0x8001#16, 0xF00F#16)
  | .and _ _ => (0x8002#16, 0xF00F#16)
  | .xor _ _ => (0x8003#16, 0xF00F#16)
  | .add _ _ => (0x8004#16, 0xF00F#16)
  | .sub _ _ => (0x8005#16, 0xF00F#16)
  | .shiftRight _ _ => (0x8006#16, 0xF00F#16)
  | .subNegated _ _ => (0x8007#16, 0xF00F#16)
  | .shiftLeft _ _ => (0x800E#16, 0xF00F#16)
  | .skipNotEqual _ _ => (0x9000#16, 0xF00F#16)
  | .loadI _ => (0xA000#16, 0xF000#16)
  | .longJump _ => (0xB000#16, 0xF000#16)
  | .random _ _ => (0xC000#16, 0xF000#16)
  | .draw _ _ _ => (0xD000#16, 0xF000#16)
  | .skipKeyPressed _ => (0xE09E#16, 0xF0FF#16)
  | .skipKeyNotPressed _ => (0xE0A1#16, 0xF0FF#16)
  | .loadRegisterDelayTimer _ => (0xF007#16, 0xF0FF#16)
  | .loadKey _ => (0xF00A#16, 0xF0FF#16)
  | .loadDelayTimerRegister _ => (0xF015#16, 0xF0FF#16)
  | .loadSoundTimerRegister _ => (0xF018#16, 0xF0FF#16)
  | .addI _ => (0xF01E#16, 0xF0FF#16)
  | .loadSprite _ => (0xF029#16, 0xF0FF#16)
  | .loadBinaryCodedDecimal _ => (0xF033#16, 0xF0FF#16)
  | .loadMemoryRegisters _ => (0xF055#16, 0xF0FF#16)
  | .loadRegistersMemory _ => (0xF065#16, 0xF0FF#16)

/-! ### The host's view of the decoder -/

/-- The word whose opcode-table bits are `w`, of which the table gives `nbits`: every bit above them is 0. -/
def tableWord (nbits w : Nat) : Word := BitVec.ofNat 16 (w % 2 ^ nbits)

/-- What the decoder reads from the instruction whose bits, numbered as spec/opcode_table.json numbers them, are `w`:
its two bytes are laid out high byte first (R52) and decoded. -/
def decodeTableWord (nbits w : Nat) : Option Instr :=
  match decode [highByte (tableWord nbits w), lowByte (tableWord nbits w)] with
  | .ok (i, _) => some i
  | .error _ => none

end Sys2Proof
end

