-- ==== Sys2Proof/Config.lean ====
section
/-! DEFINITION. What the spec fixes for this hardware (00_scope.md R6), the type of the parameter SHIFT_SRC, and the
one free value. The parameters that R6 lets a model vary (display size, font, SHIFT_SRC, LDST_INCREMENTS_I) have their
values in Machine/Params.lean. -/

namespace Sys2Proof.Config

/-- MEM_SIZE (R6, R33, R50). -/
abbrev memSize : Nat := 4096

/-- PROG_BASE, where the program image is loaded and the first Step fetches (R6, R51, R294). -/
abbrev progBase : Nat := 0x200

/-- STACK_DEPTH (R6, R27). -/
abbrev stackDepth : Nat := 16

/-- NUM_V (R6, R21). -/
abbrev numV : Nat := 16

/-- NUM_KEYS (R6, R35). -/
abbrev numKeys : Nat := 16

/-- MAX_SPRITE_ROWS, the largest n of Dxyn (R6, R123). -/
abbrev maxSpriteRows : Nat := 15

/-- FONT_STRIDE, bytes per glyph (R6, R204). -/
abbrev fontStride : Nat := 5

/-- NUM glyphs times FONT_STRIDE: the font's size in bytes (R51, R204). -/
abbrev fontSize : Nat := 16 * fontStride

/-- TICK_HZ (R6): informative, no rule depends on it (R271). -/
abbrev tickHz : Nat := 60

/-- The parameter SHIFT_SRC of 8xy6 and 8xyE (R6, R180, R182). -/
inductive ShiftSrc where
  /-- Vx is shifted, Vy ignored: this hardware's value (R6). -/
  | vx
  /-- Vy is shifted into Vx: the named alternative (R6). -/
  | vy
  deriving DecidableEq, Repr

/-- The injected random source (R36, R183): the byte that the `k`-th executed Cxkk draws. A FREE VALUE: it has no body,
so a claim holds for every stream of bytes (92_eei_decisions.md D25; log 1). -/
opaque freeByte : Nat → Byte

end Sys2Proof.Config
end

