-- ==== Sys2Proof/Machine/Params.lean ====
section
/-! DEFINITION. The values this hardware takes for the parameters that 00_scope.md R6 lets a model vary. Every operation
that depends on SHIFT_SRC, LDST_INCREMENTS_I, FONT_BASE or the display's size is written over the parameter; the meanings
in exec pass the values below (logs 8 to 11). -/

namespace Sys2Proof.Machine

open Sys2Proof Sys2Proof.Config

/-- DISPLAY_W (R6; from general knowledge, G1; log 8). -/
abbrev displayW : Nat := 64

/-- DISPLAY_H (R6; from general knowledge, G1; log 8). -/
abbrev displayH : Nat := 32

/-- FONT_BASE (R6, the spec's choice D11; log 9). -/
def fontBase : Nat := 0x000

/-- SHIFT_SRC (R6, the spec's choice D13; log 10). -/
def shiftSrc : ShiftSrc := .vx

/-- LDST_INCREMENTS_I (R6, the spec's choice D16; log 11). -/
def ldstIncrementsI : Bool := false

/-- FONT_BYTES, glyphs 0 to 7 (R204; from general knowledge, G2; log 9). -/
def fontGlyphsLow : List Byte :=
  [0xF0, 0x90, 0x90, 0x90, 0xF0] ++ [0x20, 0x60, 0x20, 0x20, 0x70] ++
  [0xF0, 0x10, 0xF0, 0x80, 0xF0] ++ [0xF0, 0x10, 0xF0, 0x10, 0xF0] ++
  [0x90, 0x90, 0xF0, 0x10, 0x10] ++ [0xF0, 0x80, 0xF0, 0x10, 0xF0] ++
  [0xF0, 0x80, 0xF0, 0x90, 0xF0] ++ [0xF0, 0x10, 0x20, 0x40, 0x40]

/-- FONT_BYTES, glyphs 8 to F (R204; from general knowledge, G2; log 9). -/
def fontGlyphsHigh : List Byte :=
  [0xF0, 0x90, 0xF0, 0x90, 0xF0] ++ [0xF0, 0x90, 0xF0, 0x10, 0xF0] ++
  [0xF0, 0x90, 0xF0, 0x90, 0x90] ++ [0xE0, 0x90, 0xE0, 0x90, 0xE0] ++
  [0xF0, 0x80, 0x80, 0x80, 0xF0] ++ [0xE0, 0x90, 0x90, 0x90, 0xE0] ++
  [0xF0, 0x80, 0xF0, 0x80, 0xF0] ++ [0xF0, 0x80, 0xF0, 0x80, 0x80]

/-- FONT_BYTES: the 80 bytes of R204. -/
def fontBytes : List Byte := fontGlyphsLow ++ fontGlyphsHigh

/-- What an address that no write has touched reads as: the reset contents, the font at FONT_BASE and 0x00 elsewhere
(70_reset_and_hazards.md R291, R292; 20_memory.md R51). -/
def unlistedByte (a : Nat) : Byte :=
  if fontBase ≤ a then fontBytes.getD (a - fontBase) 0x00#8 else 0x00#8

end Sys2Proof.Machine
end

