-- ==== Sys2Proof/Machine/State.lean ====
section
/-! DEFINITION. The architectural state of the core (10_state.md R20), as plain data; the state after reset
(70_reset_and_hazards.md R290 to R295); and the reasons a step of the model can stop. -/

namespace Sys2Proof.Machine

open Sys2Proof Sys2Proof.Config

/-- KeyState (R35). -/
inductive KeyState where
  | pressed
  | released
  deriving DecidableEq, Repr

/-- Chip8Error, the closed error taxonomy of the error channel (60_exceptions.md R260). -/
inductive Chip8Error where
  /-- Code 0; nothing raises it (R261). -/
  | invalidRegister
  /-- Code 1; decode of an illegal word (R262). -/
  | unknownInstruction
  /-- Code 2; Call with a full stack (R145). -/
  | stackOverflow
  /-- Code 3; Return with an empty stack (R141). -/
  | stackUnderflow
  /-- Code 4; an access that reaches an address outside memory (R56). -/
  | memoryOutOfRange
  /-- Code 5; Construct with too long an image (R296); no Step raises it. -/
  | programTooLarge
  deriving DecidableEq, Repr

/-- What FAULT holds after an error: (E, pc, word, addr) (R32, R37). -/
structure FaultRecord where
  /-- The error that ended the step. -/
  error : Chip8Error
  /-- The PC of the failing step. -/
  pc : Word
  /-- The opcode word; 0 when the fetch itself failed. -/
  word : Word
  /-- For MemoryOutOfRange the first address of the failing access; 0 for the other errors. -/
  addr : FaultAddr
  deriving DecidableEq, Repr

/-- M as plain data (R33): (address, byte) pairs in the canonical form `Memory.wf`; an address that is not listed reads
as its reset contents, `unlistedByte` (log 7). -/
abbrev Memory := List Host.Cell

/-- A grid of `h` rows of `w` pixels; on = true (R34). Row 0 is the top, column 0 the left (G6, log 23). -/
abbrev Grid (w h : Nat) := Vector (Vector Bool w) h

/-- The architectural state (R20). VF is `v[15]` (R23). `drawIndex` is the MODEL's own field: it numbers the draws of the
free byte stream `Config.freeByte` (R36, log 1). -/
structure State where
  /-- V[0] .. V[15] (R21). -/
  v : Vector Byte numV
  /-- I (R26). -/
  i : Word
  /-- PC (R24). -/
  pc : Word
  /-- STACK[0] .. STACK[STACK_DEPTH-1] (R27). -/
  stack : Vector Word stackDepth
  /-- SP in 0 .. STACK_DEPTH: the entries in use (R27). -/
  sp : Fin (stackDepth + 1)
  /-- DT (R28). -/
  dt : Byte
  /-- ST (R29). -/
  st : Byte
  /-- M (R33). -/
  mem : Memory
  /-- DISP (R34). -/
  disp : Grid displayW displayH
  /-- KEY[0] .. KEY[15] (R35). -/
  key : Vector KeyState numKeys
  /-- KWAIT (R30). -/
  kwait : Option Reg
  /-- KLATCH (R31). -/
  klatch : Option Key
  /-- FAULT (R32). -/
  fault : Option FaultRecord
  /-- The model's own: how many random bytes have been consumed (log 1). -/
  drawIndex : Nat
  deriving DecidableEq, Repr

/-- Why `step` stops with a fault. -/
inductive Fault where
  /-- Raised by `step` alone, when FAULT is not none: "no later Step is taken" (R32, R264); the record is the error that
  ended the run. SAFE: the spec gives no such Step any effect (log 2). -/
  | stepNotEnabled (r : FaultRecord)
  deriving DecidableEq, Repr

/-- Why `step` or `exec` gives no meaning. -/
inductive Refusal where
  /-- Raised by an arm of `exec` whose instruction has no meaning yet; no arm of this model does. SAFE. -/
  | notModelled (mnemonic : String)
  deriving DecidableEq, Repr

/-- What one Step, or one instruction, ends in. -/
abbrev StepOutcome := Host.Outcome State Fault Refusal

/-- The state after `Construct` with no image (R290 to R295): memory at its reset contents, with nothing listed, and every
element at the value its rule gives. -/
def State.reset : State where
  v := Vector.replicate numV 0x00#8
  i := 0x0000#16
  pc := BitVec.ofNat 16 progBase
  stack := Vector.replicate stackDepth 0x0000#16
  sp := 0
  dt := 0x00#8
  st := 0x00#8
  mem := []
  disp := Vector.replicate displayH (Vector.replicate displayW false)
  key := Vector.replicate numKeys .released
  kwait := none
  klatch := none
  fault := none
  drawIndex := 0

end Sys2Proof.Machine
end

