-- ==== Sys2Proof/Machine/Ops.lean ====
section
/-! DEFINITION. The named operations over the state: registers, memory with its bounds checks (00_scope.md R11,
20_memory.md R50 to R68), the call stack (10_state.md R27), the fetch (30_encoding.md R101), the error channel
(60_exceptions.md R260 to R265) and the key-wait poll (R100). -/

namespace Sys2Proof.Machine

open Sys2Proof Sys2Proof.Config

/-! ### Registers: the one home of each read and write -/

/-- V[x] (R21): no register is hard-wired or aliased. -/
def State.readV (s : State) (x : Reg) : Byte := s.v[x.val]

/-- V[x] <- b (R21). -/
def State.setV (s : State) (x : Reg) (b : Byte) : State := { s with v := s.v.set x.val b }

/-- All of V at once, the destination of a block load (R207). -/
def State.setVs (s : State) (v : Vector Byte numV) : State := { s with v := v }

/-- I <- a (R26). -/
def State.setI (s : State) (a : Word) : State := { s with i := a }

/-- PC <- a, never masked and never checked when written (R25, R140). -/
def State.setPc (s : State) (a : Word) : State := { s with pc := a }

/-- STACK[j] <- a (R27). -/
def State.setStackEntry (s : State) (j : Fin stackDepth) (a : Word) : State := { s with stack := s.stack.set j.val a }

/-- STACK[j] (R27). -/
def State.readStack (s : State) (j : Fin stackDepth) : Word := s.stack[j.val]

/-- SP <- n (R27). -/
def State.setSp (s : State) (n : Fin (stackDepth + 1)) : State := { s with sp := n }

/-- DT <- b (R28). -/
def State.setDt (s : State) (b : Byte) : State := { s with dt := b }

/-- ST <- b (R29). -/
def State.setSt (s : State) (b : Byte) : State := { s with st := b }

/-- M as a whole replaced by its updated contents (R33). -/
def State.setMem (s : State) (m : Memory) : State := { s with mem := m }

/-- DISP replaced (R34). -/
def State.setDisp (s : State) (d : Grid displayW displayH) : State := { s with disp := d }

/-- KEY[k] <- c (R35). -/
def State.setKey (s : State) (k : Key) (c : KeyState) : State := { s with key := s.key.set k.val c }

/-- KEY[k] (R35). -/
def State.readKey (s : State) (k : Key) : KeyState := s.key[k.val]

/-- KWAIT <- o (R30). -/
def State.setKwait (s : State) (o : Option Reg) : State := { s with kwait := o }

/-- KLATCH <- o (R31). -/
def State.setKlatch (s : State) (o : Option Key) : State := { s with klatch := o }

/-- FAULT <- o (R32). -/
def State.setFault (s : State) (o : Option FaultRecord) : State := { s with fault := o }

/-- One byte of the random stream is consumed (R183, log 1). -/
def State.nextDraw (s : State) : State := { s with drawIndex := s.drawIndex + 1 }

/-- The advance of PC by 2, modulo 2^16: the cycle's (R102), a taken skip's (R146) and the end of a key wait's (R100). -/
def advancePc (s : State) : State := s.setPc (s.pc + 2#16)

/-- A, the address of the instruction whose pseudocode runs: the cycle has set PC to A + 2 (R102, R108). -/
def instrAddr (s : State) : Word := s.pc - 2#16

/-! ### Memory -/

/-- The canonical form of a memory: strictly rising addresses, each inside M, and no entry equal to what its address
reads as unlisted. Equal memories are equal data. -/
abbrev Memory.wf (m : Memory) : Prop :=
  m.Pairwise (fun c d => c.1 < d.1) ∧ ∀ c ∈ m, c.1 < memSize ∧ c.2 ≠ unlistedByte c.1

/-- M[a] (R50): the listed byte, or the reset contents (R291, R292). -/
def Memory.read : Memory → Nat → Byte
  | [], a => unlistedByte a
  | (k, b) :: rest, a => if k = a then b else Memory.read rest a

/-- Puts an entry before the first entry of a higher address. -/
def Memory.insert (a : Nat) (b : Byte) : Memory → Memory
  | [] => [(a, b)]
  | c :: rest => if a < c.1 then (a, b) :: c :: rest else c :: Memory.insert a b rest

/-- M[a] <- b, keeping the canonical form: the entry of `a` goes, and comes back only if `b` is not its unlisted byte. -/
def Memory.write (m : Memory) (a : Nat) (b : Byte) : Memory :=
  let others := m.filter (fun c => c.1 != a)
  if b = unlistedByte a then others else Memory.insert a b others

/-- M[a], M[a+1], ... <- the bytes, in ascending address order (R53). -/
def Memory.writeBytes (m : Memory) (a : Nat) : List Byte → Memory
  | [] => m
  | b :: bs => Memory.writeBytes (m.write a b) (a + 1) bs

/-- M[a], ..., M[a+n-1] in ascending address order (R53). -/
def Memory.readBytes (m : Memory) (a n : Nat) : List Byte := (List.range n).map (fun j => m.read (a + j))

/-- The bounds check of R11: an access of no byte passes; the address is full-width and never masked (R56). -/
def accessInRange (a n : Nat) : Bool := n == 0 || decide (a + n ≤ memSize)

/-- `MemRead(a, n)` of R11; `none` stands for `raise MemoryOutOfRange(a)`. -/
def memRead (m : Memory) (a n : Nat) : Option (List Byte) :=
  if accessInRange a n then some (m.readBytes a n) else none

/-- `MemWrite(a, n, bs)` of R11 with n the length of `bs`; `none` stands for `raise MemoryOutOfRange(a)`, and then no
byte is written (R58). -/
def memWrite (m : Memory) (a : Nat) (bs : List Byte) : Option Memory :=
  if accessInRange a bs.length then some (m.writeBytes a bs) else none

/-- One byte of the state's memory. -/
def State.readByte (s : State) (a : Nat) : Byte := s.mem.read a

/-- The opcode word at `a`, high byte first (R52). -/
def Memory.wordAt (m : Memory) (a : Nat) : Word := opcodeOfBytes (m.read a) (m.read (a + 1))

/-- Fetch (R101): the two bytes at PC as a word; `none` stands for `raise MemoryOutOfRange(PC)`. Any alignment (R54). -/
def fetchWord (s : State) : Option Word :=
  if s.pc.toNat + 2 ≤ memSize then some (s.mem.wordAt s.pc.toNat) else none

/-! ### The call stack -/

/-- Push of PC (R27, R145): STACK[SP] <- PC, then SP <- SP + 1; `none` when all STACK_DEPTH entries are in use. -/
def pushPc (s : State) : Option State :=
  if h : s.sp.val < stackDepth then
    some ((s.setStackEntry ⟨s.sp.val, h⟩ s.pc).setSp ⟨s.sp.val + 1, Nat.succ_lt_succ h⟩)
  else none

/-- The entry that a pop takes: SP - 1 is an index of the stack. -/
theorem popIndex_lt (s : State) (h : 0 < s.sp.val) : s.sp.val - 1 < stackDepth := by
  have := s.sp.isLt
  omega

/-- Pop into PC (R27, R141): SP <- SP - 1, then PC <- STACK[SP]; the entry keeps its value; `none` when the stack is
empty. -/
def popPc (s : State) : Option State :=
  if h : 0 < s.sp.val then
    some ((s.setSp ⟨s.sp.val - 1, Nat.lt_succ_of_lt (popIndex_lt s h)⟩).setPc
      (s.readStack ⟨s.sp.val - 1, popIndex_lt s h⟩))
  else none

/-! ### Block register transfer (R22) -/

/-- V[0], ..., V[x], which is x + 1 registers (R22). -/
def registersUpTo (s : State) (x : Reg) : List Byte := s.v.toList.take (x.val + 1)

/-- V[j], V[j+1], ... <- the bytes, in ascending order (R22). -/
def writeRegisters (v : Vector Byte numV) (j : Nat) : List Byte → Vector Byte numV
  | [] => v
  | b :: bs => writeRegisters (v.setIfInBounds j b) (j + 1) bs

/-- I after a block transfer of `x + 1` bytes, for either value of LDST_INCREMENTS_I (R206, R207). -/
def advanceI (increments : Bool) (x : Reg) (s : State) : State :=
  if increments then s.setI (s.i + BitVec.ofNat 16 (x.val + 1)) else s

/-! ### The error channel -/

/-- The code of an error (R260). -/
def Chip8Error.code : Chip8Error → Nat
  | .invalidRegister => 0
  | .unknownInstruction => 1
  | .stackOverflow => 2
  | .stackUnderflow => 3
  | .memoryOutOfRange => 4
  | .programTooLarge => 5

/-- Error entry (R264): FAULT is written and nothing else. There is no return from it (R265). -/
def recordFault (e : Chip8Error) (pc word : Word) (a0 : Nat) (s : State) : State :=
  s.setFault (some { error := e, pc := pc, word := word, addr := BitVec.ofNat 17 a0 })

/-- `raise E` inside the pseudocode of instruction `i` (R12, R105): the state is the one before the failing Step, so PC
is A again, and FAULT holds (E, A, w, a0). The word w is the one `i` was decoded from (R91, log 3). -/
def raise (e : Chip8Error) (i : Instr) (a0 : Nat) (s : State) : State :=
  recordFault e (instrAddr s) (encode i) a0 (s.setPc (instrAddr s))

/-- An instruction with a check of its own: it completes with `k`, or raises `e` and has none of its effect (R105). -/
def completeOrRaise {α : Type} (o : Option α) (e : Chip8Error) (i : Instr) (a0 : Nat) (s : State) (k : α → State) :
    StepOutcome :=
  match o with
  | some a => .next (k a)
  | none => .next (raise e i a0 s)

/-! ### The key wait -/

/-- The poll at the top of Step while a wait is pending for V[x] (R100): a latched key is written to V[x], the wait and
the latch end and PC moves to A + 2; without a key nothing changes. -/
def keyWaitPoll (x : Reg) (s : State) : State :=
  match s.klatch with
  | some k => advancePc (((s.setV x (BitVec.ofNat 8 k.val)).setKwait none).setKlatch none)
  | none => s

end Sys2Proof.Machine
end

