-- ==== Sys2Proof/Machine/Operands.lean ====
section
/-! DEFINITION. Operand forms (30_encoding.md R82, R83): registers are read with `State.readV`; immediates are unsigned
and zero-extended; a key or digit index is the low nibble of a register (00_scope.md R13). -/

namespace Sys2Proof.Machine

open Sys2Proof Sys2Proof.Config

/-- `Addr(v)`: the low 12 bits of a 16-bit value (R13). -/
def addrOf (v : Word) : Addr := v.extractLsb' 0 12

/-- `Nibble(b)`: the low nibble of a byte (R13). -/
def nibbleOf (b : Byte) : Fin 16 := Fin.ofNat 16 (b.extractLsb' 0 4).toNat

/-- `zext_16(nnn)` (R82). -/
def addrWord (nnn : Addr) : Word := nnn.zeroExtend 16

/-- `zext_16(b)` of a byte (R9). -/
def byteWord (b : Byte) : Word := b.zeroExtend 16

/-- The key that Ex9E and ExA1 test: `Nibble(V[x])` (R231). -/
def keyOperand (s : State) (x : Reg) : Key := nibbleOf (s.readV x)

/-- The address of the glyph of digit `d` (R203, R204). -/
def glyphAddress (base : Nat) (d : Fin 16) : Word := BitVec.ofNat 16 (base + fontStride * d.val)

/-- The source of a shift, for either value of SHIFT_SRC (R180, R182). -/
def shiftOperand (src : ShiftSrc) (s : State) (x y : Reg) : Byte :=
  match src with
  | .vx => s.readV x
  | .vy => s.readV y

/-- The address that a transfer through I starts at: I at full width, unmasked (R56, R200). -/
def indexAddress (s : State) : Nat := s.i.toNat

end Sys2Proof.Machine
end

