-- ==== Sys2Proof/Machine/Flags.lean ====
section
/-! DEFINITION. The flag computations of 42_alu.md (R170) and the order in which a result and its flag are written
(R177). The collision flag of Dxyn is in Machine/Display.lean. -/

namespace Sys2Proof.Machine

open Sys2Proof Sys2Proof.Config

/-- The index of VF (R23). -/
def flagReg : Reg := 15

/-- A flag as VF holds it: 1 or 0 (R23). -/
def flagByte (b : Bool) : Byte := if b then 0x01#8 else 0x00#8

/-- Carry out of Add: bit 8 of the 9-bit sum (R170, R178). -/
def carryOut (a b : Byte) : Bool := (a.zeroExtend 9 + b.zeroExtend 9).getLsbD 8

/-- No borrow of `a - b`: it occurs exactly when a < b (R170, R179). -/
def noBorrow (a b : Byte) : Bool := decide (b ≤ a)

/-- The bit a right shift by one shifts out (R180). -/
def shiftedOutRight (a : Byte) : Bool := a.getLsbD 0

/-- The bit a left shift by one shifts out (R182). -/
def shiftedOutLeft (a : Byte) : Bool := a.getLsbD 7

/-- R177: the result is written to V[x] first and the flag to VF last, so that x = 0xF leaves the flag. -/
def writeResultThenFlag (x : Reg) (result : Byte) (flag : Bool) (s : State) : State :=
  (s.setV x result).setV flagReg (flagByte flag)

end Sys2Proof.Machine
end

