-- ==== Sys2Proof/Machine/Alu.lean ====
section
/-! DEFINITION. Register file and ALU: 6xkk, 7xkk, 8xy0 to 8xyE, Cxkk (42_alu.md R170 to R183). PC is not touched. -/

namespace Sys2Proof.Machine

open Sys2Proof Sys2Proof.Config

/-- 6xkk LoadOperand (R171). -/
def execLoadOperand (x : Reg) (kk : Byte) (s : State) : StepOutcome := .next (s.setV x kk)

/-- 7xkk AddOperand (R172): modulo 256, no flag. -/
def execAddOperand (x : Reg) (kk : Byte) (s : State) : StepOutcome := .next (s.setV x (s.readV x + kk))

/-- 8xy0 Load (R173). -/
def execLoad (x y : Reg) (s : State) : StepOutcome := .next (s.setV x (s.readV y))

/-- 8xy1 Or (R174): VF is not written. -/
def execOr (x y : Reg) (s : State) : StepOutcome := .next (s.setV x (s.readV x ||| s.readV y))

/-- 8xy2 And (R175): VF is not written. -/
def execAnd (x y : Reg) (s : State) : StepOutcome := .next (s.setV x (s.readV x &&& s.readV y))

/-- 8xy3 XOr (R176): VF is not written. -/
def execXor (x y : Reg) (s : State) : StepOutcome := .next (s.setV x (s.readV x ^^^ s.readV y))

/-- 8xy4 Add (R178, R177). -/
def execAdd (x y : Reg) (s : State) : StepOutcome :=
  .next (writeResultThenFlag x (s.readV x + s.readV y) (carryOut (s.readV x) (s.readV y)) s)

/-- 8xy5 Sub (R179, R177): Vx - Vy. -/
def execSub (x y : Reg) (s : State) : StepOutcome :=
  .next (writeResultThenFlag x (s.readV x - s.readV y) (noBorrow (s.readV x) (s.readV y)) s)

/-- A right shift by one for either value of SHIFT_SRC (R180). -/
def shiftRightFrom (src : ShiftSrc) (x y : Reg) (s : State) : State :=
  writeResultThenFlag x (shiftOperand src s x y >>> 1) (shiftedOutRight (shiftOperand src s x y)) s

/-- 8xy6 ShiftRight (R180, R177). -/
def execShiftRight (x y : Reg) (s : State) : StepOutcome := .next (shiftRightFrom shiftSrc x y s)

/-- 8xy7 SubNegated (R181, R177): Vy - Vx. -/
def execSubNegated (x y : Reg) (s : State) : StepOutcome :=
  .next (writeResultThenFlag x (s.readV y - s.readV x) (noBorrow (s.readV y) (s.readV x)) s)

/-- A left shift by one for either value of SHIFT_SRC (R182). -/
def shiftLeftFrom (src : ShiftSrc) (x y : Reg) (s : State) : State :=
  writeResultThenFlag x (shiftOperand src s x y <<< 1) (shiftedOutLeft (shiftOperand src s x y)) s

/-- 8xyE ShiftLeft (R182, R177). -/
def execShiftLeft (x y : Reg) (s : State) : StepOutcome := .next (shiftLeftFrom shiftSrc x y s)

/-- Random for a given draw (R183): V[x] <- rand & kk, and the byte of the stream is consumed. -/
def randomWith (rand : Byte) (x : Reg) (kk : Byte) (s : State) : State := (s.setV x (rand &&& kk)).nextDraw

/-- Cxkk Random (R183): the draw is the free byte that is next in the stream (log 1). -/
def execRandom (x : Reg) (kk : Byte) (s : State) : StepOutcome := .next (randomWith (freeByte s.drawIndex) x kk s)

end Sys2Proof.Machine
end

