-- ==== Sys2Proof/Machine/ControlFlow.lean ====
section
/-! DEFINITION. Control flow: 00EE, 0nnn, 1nnn, 2nnn, 3xkk, 4xkk, 5xy0, 9xy0, Bnnn (41_control_flow.md R140 to R151).
Every meaning starts with PC = A + 2. -/

namespace Sys2Proof.Machine

open Sys2Proof Sys2Proof.Config

/-- A skip (R146): PC moves past the next word when the condition holds; that word is not looked at. -/
def skipIf (c : Bool) (s : State) : State := if c then advancePc s else s

/-- 00EE Return (R141). -/
def execRet (s : State) : StepOutcome := completeOrRaise (popPc s) .stackUnderflow .ret 0 s id

/-- 0nnn Sys (R142): nothing; PC stays A + 2. -/
def execSys (_nnn : Addr) (s : State) : StepOutcome := .next s

/-- 1nnn Jump (R143). -/
def execJump (nnn : Addr) (s : State) : StepOutcome := .next (s.setPc (addrWord nnn))

/-- 2nnn Call (R144, R145): the pushed value is PC = A + 2. -/
def execCall (nnn : Addr) (s : State) : StepOutcome :=
  completeOrRaise (pushPc s) .stackOverflow (.call nnn) 0 s (fun t => t.setPc (addrWord nnn))

/-- 3xkk SkipEqualOperand (R147). -/
def execSkipEqualOperand (x : Reg) (kk : Byte) (s : State) : StepOutcome := .next (skipIf (s.readV x == kk) s)

/-- 4xkk SkipNotEqualOperand (R148, 90_conflicts.md C6). -/
def execSkipNotEqualOperand (x : Reg) (kk : Byte) (s : State) : StepOutcome := .next (skipIf (s.readV x != kk) s)

/-- 5xy0 SkipEqual (R149). -/
def execSkipEqual (x y : Reg) (s : State) : StepOutcome := .next (skipIf (s.readV x == s.readV y) s)

/-- 9xy0 SkipNotEqual (R150). -/
def execSkipNotEqual (x y : Reg) (s : State) : StepOutcome := .next (skipIf (s.readV x != s.readV y) s)

/-- Bnnn LongJump (R151): always V0; the sum is at most 0x10FE and is not masked. -/
def execLongJump (nnn : Addr) (s : State) : StepOutcome := .next (s.setPc (addrWord nnn + byteWord (s.readV 0)))

end Sys2Proof.Machine
end

