-- ==== Sys2Proof/Machine/Display.lean ====
section
/-! DEFINITION. The display unit and sprite renderer: 00E0 and Dxyn (40_display.md R120 to R128). The renderer is written
for any grid size of at least one pixel; the meanings use the state's. -/

namespace Sys2Proof.Machine

open Sys2Proof Sys2Proof.Config

/-- DISP[X][Y] (R34). -/
def getPixel {w h : Nat} (d : Grid w h) (X : Fin w) (Y : Fin h) : Bool := (d[Y.val])[X.val]

/-- DISP[X][Y] <- not DISP[X][Y] (R125). -/
def togglePixel {w h : Nat} (d : Grid w h) (X : Fin w) (Y : Fin h) : Grid w h :=
  d.set Y.val ((d[Y.val]).set X.val (!getPixel d X Y))

/-- The all-off grid (R121). -/
def blankGrid (w h : Nat) : Grid w h := Vector.replicate h (Vector.replicate w false)

/-- Pixel `c` of a sprite row: bit 7 is the leftmost pixel, column offset 0 (R123). -/
def spritePixel (row : Byte) (c : Nat) : Bool := row.getLsbD (7 - c)

/-- One pass of the inner loop of R125 over (DISP, collide): pixel `c` of row `r` of a sprite at (x0, y0). -/
def drawPixel {w h : Nat} [NeZero w] [NeZero h] (x0 y0 r : Nat) (row : Byte) (acc : Grid w h × Bool) (c : Nat) :
    Grid w h × Bool :=
  if spritePixel row c then
    let X := Fin.ofNat w (x0 + c)
    let Y := Fin.ofNat h (y0 + r)
    (togglePixel acc.1 X Y, acc.2 || getPixel acc.1 X Y)
  else acc

/-- The inner loop of R125: c ascending from 0 to 7. -/
def drawRow {w h : Nat} [NeZero w] [NeZero h] (x0 y0 r : Nat) (row : Byte) (acc : Grid w h × Bool) : Grid w h × Bool :=
  (List.range 8).foldl (drawPixel x0 y0 r row) acc

/-- The outer loop of R125: r ascending, from the row numbered `r`. -/
def drawRows {w h : Nat} [NeZero w] [NeZero h] (x0 y0 r : Nat) (sprite : List Byte) (acc : Grid w h × Bool) :
    Grid w h × Bool :=
  match sprite with
  | [] => acc
  | row :: rest => drawRows x0 y0 (r + 1) rest (drawRow x0 y0 r row acc)

/-- The blit of R125 of a sprite at coordinates (vx, vy), which wrap before the loops start; collide starts at 0. -/
def blit {w h : Nat} [NeZero w] [NeZero h] (vx vy : Nat) (sprite : List Byte) (d : Grid w h) : Grid w h × Bool :=
  drawRows (vx % w) (vy % h) 0 sprite (d, false)

/-- The effect of a Draw whose sprite has been read (R125, R127): V[x] and V[y] are read before VF is written (R128). -/
def drawSprite (x y : Reg) (s : State) (sprite : List Byte) : State :=
  let r := blit (s.readV x).toNat (s.readV y).toNat sprite s.disp
  (s.setDisp r.1).setV flagReg (flagByte r.2)

/-- 00E0 Clear (R121). -/
def execClear (s : State) : StepOutcome := .next (s.setDisp (blankGrid displayW displayH))

/-- Dxyn Draw (R125, R126). -/
def execDraw (x y : Reg) (n : RowCount) (s : State) : StepOutcome :=
  completeOrRaise (memRead s.mem (indexAddress s) n.val) .memoryOutOfRange (.draw x y n) (indexAddress s) s
    (drawSprite x y s)

end Sys2Proof.Machine
end

