-- ==== Sys2Proof/Machine/IndexMemory.lean ====
section
/-! DEFINITION. Index register and memory transfers: Annn, Fx1E, Fx29, Fx33, Fx55, Fx65 (43_index_memory.md R200 to
R207). PC is not touched. -/

namespace Sys2Proof.Machine

open Sys2Proof Sys2Proof.Config

/-- The decimal digits of a byte: hundreds, tens, ones (R205). -/
def decimalDigits (b : Byte) : List Byte := [b / 100#8, b / 10#8 % 10#8, b % 10#8]

/-- Annn LoadI (R201). -/
def execLoadI (nnn : Addr) (s : State) : StepOutcome := .next (s.setI (addrWord nnn))

/-- Fx1E AddI (R202): modulo 2^16, VF is never written. -/
def execAddI (x : Reg) (s : State) : StepOutcome := .next (s.setI (s.i + byteWord (s.readV x)))

/-- Fx29 LoadSprite (R203). -/
def execLoadSprite (x : Reg) (s : State) : StepOutcome :=
  .next (s.setI (glyphAddress fontBase (nibbleOf (s.readV x))))

/-- Fx33 LoadBinaryCodedDecimal (R205). -/
def execLoadBinaryCodedDecimal (x : Reg) (s : State) : StepOutcome :=
  completeOrRaise (memWrite s.mem (indexAddress s) (decimalDigits (s.readV x))) .memoryOutOfRange
    (.loadBinaryCodedDecimal x) (indexAddress s) s s.setMem

/-- A block store of V[0] .. V[x] that has passed its check, for either value of LDST_INCREMENTS_I (R206). -/
def blockStored (increments : Bool) (x : Reg) (s : State) (m : Memory) : State := advanceI increments x (s.setMem m)

/-- Fx55 LoadMemoryRegisters (R206). -/
def execLoadMemoryRegisters (x : Reg) (s : State) : StepOutcome :=
  completeOrRaise (memWrite s.mem (indexAddress s) (registersUpTo s x)) .memoryOutOfRange
    (.loadMemoryRegisters x) (indexAddress s) s (blockStored ldstIncrementsI x s)

/-- A block load into V[0] .. V[x] that has passed its check, for either value of LDST_INCREMENTS_I (R207). -/
def blockLoaded (increments : Bool) (x : Reg) (s : State) (bs : List Byte) : State :=
  advanceI increments x (s.setVs (writeRegisters s.v 0 bs))

/-- Fx65 LoadRegistersMemory (R207). -/
def execLoadRegistersMemory (x : Reg) (s : State) : StepOutcome :=
  completeOrRaise (memRead s.mem (indexAddress s) (x.val + 1)) .memoryOutOfRange
    (.loadRegistersMemory x) (indexAddress s) s (blockLoaded ldstIncrementsI x s)

end Sys2Proof.Machine
end

