-- ==== Sys2Proof/Machine/KeypadTimers.lean ====
section
/-! DEFINITION. Keypad and timer instructions: Ex9E, ExA1, Fx07, Fx0A, Fx15, Fx18 (44_keypad_timers.md R230 to R238).
None touches memory and none raises an error. -/

namespace Sys2Proof.Machine

open Sys2Proof Sys2Proof.Config

/-- Ex9E SkipKeyPressed (R232, R231): the current level of the key, not a transition. -/
def execSkipKeyPressed (x : Reg) (s : State) : StepOutcome :=
  .next (skipIf (s.readKey (keyOperand s x) == .pressed) s)

/-- ExA1 SkipKeyNotPressed (R233, R231). -/
def execSkipKeyNotPressed (x : Reg) (s : State) : StepOutcome :=
  .next (skipIf (s.readKey (keyOperand s x) == .released) s)

/-- Fx07 LoadRegisterDelayTimer (R234). -/
def execLoadRegisterDelayTimer (x : Reg) (s : State) : StepOutcome := .next (s.setV x s.dt)

/-- Fx0A LoadKey (R235): the wait is entered and PC is put back to A. Its end is `keyWaitPoll` (R100). -/
def execLoadKey (x : Reg) (s : State) : StepOutcome :=
  .next (((s.setKwait (some x)).setKlatch none).setPc (instrAddr s))

/-- Fx15 LoadDelayTimerRegister (R237). -/
def execLoadDelayTimerRegister (x : Reg) (s : State) : StepOutcome := .next (s.setDt (s.readV x))

/-- Fx18 LoadSoundTimerRegister (R238). -/
def execLoadSoundTimerRegister (x : Reg) (s : State) : StepOutcome := .next (s.setSt (s.readV x))

end Sys2Proof.Machine
end

