-- ==== Sys2Proof/Machine/Dispatch.lean ====
section
/-! DEFINITION. Dispatch (30_encoding.md R103): one arm per variant, run with PC = A + 2. -/

namespace Sys2Proof.Machine

open Sys2Proof

/-- The meaning of an instruction, run after the cycle has fetched, decoded and advanced PC (R102, R108). -/
def exec (i : Instr) (s : State) : Host.Outcome State Fault Refusal :=
  match i with
  | .clear => Sys2Proof.Machine.execClear s
  | .ret => Sys2Proof.Machine.execRet s
  | .sys nnn => Sys2Proof.Machine.execSys nnn s
  | .jump nnn => Sys2Proof.Machine.execJump nnn s
  | .call nnn => Sys2Proof.Machine.execCall nnn s
  | .skipEqualOperand x kk => Sys2Proof.Machine.execSkipEqualOperand x kk s
  | .skipNotEqualOperand x kk => Sys2Proof.Machine.execSkipNotEqualOperand x kk s
  | .skipEqual x y => Sys2Proof.Machine.execSkipEqual x y s
  | .loadOperand x kk => Sys2Proof.Machine.execLoadOperand x kk s
  | .addOperand x kk => Sys2Proof.Machine.execAddOperand x kk s
  | .load x y => Sys2Proof.Machine.execLoad x y s
  | .or x y => Sys2Proof.Machine.execOr x y s
  | .and x y => Sys2Proof.Machine.execAnd x y s
  | .xor x y => Sys2Proof.Machine.execXor x y s
  | .add x y => Sys2Proof.Machine.execAdd x y s
  | .sub x y => Sys2Proof.Machine.execSub x y s
  | .shiftRight x y => Sys2Proof.Machine.execShiftRight x y s
  | .subNegated x y => Sys2Proof.Machine.execSubNegated x y s
  | .shiftLeft x y => Sys2Proof.Machine.execShiftLeft x y s
  | .skipNotEqual x y => Sys2Proof.Machine.execSkipNotEqual x y s
  | .loadI nnn => Sys2Proof.Machine.execLoadI nnn s
  | .longJump nnn => Sys2Proof.Machine.execLongJump nnn s
  | .random x kk => Sys2Proof.Machine.execRandom x kk s
  | .draw x y n => Sys2Proof.Machine.execDraw x y n s
  | .skipKeyPressed x => Sys2Proof.Machine.execSkipKeyPressed x s
  | .skipKeyNotPressed x => Sys2Proof.Machine.execSkipKeyNotPressed x s
  | .loadRegisterDelayTimer x => Sys2Proof.Machine.execLoadRegisterDelayTimer x s
  | .loadKey x => Sys2Proof.Machine.execLoadKey x s
  | .loadDelayTimerRegister x => Sys2Proof.Machine.execLoadDelayTimerRegister x s
  | .loadSoundTimerRegister x => Sys2Proof.Machine.execLoadSoundTimerRegister x s
  | .addI x => Sys2Proof.Machine.execAddI x s
  | .loadSprite x => Sys2Proof.Machine.execLoadSprite x s
  | .loadBinaryCodedDecimal x => Sys2Proof.Machine.execLoadBinaryCodedDecimal x s
  | .loadMemoryRegisters x => Sys2Proof.Machine.execLoadMemoryRegisters x s
  | .loadRegistersMemory x => Sys2Proof.Machine.execLoadRegistersMemory x s

end Sys2Proof.Machine
end

