-- ==== Sys2Proof/Machine/Cycle.lean ====
section
/-! DEFINITION. The fetch, decode and dispatch cycle (30_encoding.md R100 to R106), and the placing of a word where the
next Step fetches it. -/

namespace Sys2Proof.Machine

open Sys2Proof Sys2Proof.Config

/-- Cycle (R101 to R103): fetch, decode, advance PC by 2, dispatch. The checks come in the order of R263: the fetch range,
the decoding, then the instruction's own. A fetch or decode that fails writes FAULT alone, with PC still A (R105, R262). -/
def cycle (s : State) : StepOutcome :=
  match fetchWord s with
  | none => .next (recordFault .memoryOutOfRange s.pc 0x0000#16 s.pc.toNat s)
  | some w =>
    match decodeWord w with
    | .error _ => .next (recordFault .unknownInstruction s.pc w 0 s)
    | .ok i => exec i (advancePc s)

/-- `Step` (R100, R264): enabled only when FAULT = none; a pending key wait is polled and nothing is fetched; otherwise
one cycle. -/
def runStep (s : State) : StepOutcome :=
  match s.fault with
  | some r => .fault (.stepNotEnabled r)
  | none =>
    match s.kwait with
    | some x => .next (keyWaitPoll x s)
    | none => cycle s

/-- Where a word is placed so that the next Step fetches it: PC, or PROG_BASE when PC is outside memory (log 6). -/
def fetchSlot (s : State) : Word := if s.pc.toNat + 2 ≤ memSize then s.pc else BitVec.ofNat 16 progBase

/-- Places the opcode-table word `w` at `fetchSlot`, high byte first (R52), and makes the next Step a cycle that fetches it:
no error recorded, no key wait pending, PC at the slot (log 6). -/
def placeFetchWord (s : State) (nbits w : Nat) : State :=
  { s with
    mem := s.mem.writeBytes (fetchSlot s).toNat [highByte (tableWord nbits w), lowByte (tableWord nbits w)]
    pc := fetchSlot s
    kwait := none
    fault := none }

end Sys2Proof.Machine
end

