-- ==== Sys2Proof/Machine/Step.lean ====
section
/-! DEFINITION. The step of the machine: the transaction `Step` of 00_scope.md R7, 30_encoding.md R100. The host's other
transactions are in Machine/Transactions.lean. -/

namespace Sys2Proof.Machine

open Sys2Proof

/-- One Step (R100 to R106). -/
def step : State → Host.Outcome State Fault Refusal := runStep

/-- The state whose next step fetches and runs the opcode-table word `w` (log 6). -/
def State.withFetchWord (s : State) (nbits w : Nat) : State := placeFetchWord s nbits w

end Sys2Proof.Machine
end

