-- ==== Sys2Proof/Machine/Transactions.lean ====
section
/-! DEFINITION. The host's transactions and read-outs (00_scope.md R7): Construct, Tick, KeyDown, KeyUp, the display and
status read-outs, and lists of transactions in the order the host calls them (30_encoding.md R107, 60_exceptions.md R267).
Tick, KeyDown and KeyUp are enabled in every state (R264, R272) and never raise. -/

namespace Sys2Proof.Machine

open Sys2Proof Sys2Proof.Config

/-! ### Construct (70_reset_and_hazards.md R290 to R296) -/

/-- How `Construct` fails: the error and the length of the image (R260); no VM state exists then (R290). -/
structure ConstructError where
  error : Chip8Error
  imageLength : Nat
  deriving DecidableEq, Repr

/-- `load_program` (R60): the image verbatim from PROG_BASE, or nothing when it is longer than the capacity left. -/
def loadProgram (image : List Byte) (m : Memory) : Option Memory :=
  if image.length ≤ memSize - progBase then some (m.writeBytes progBase image) else none

/-- `Construct(image?)` (R290 to R296). -/
def construct (image : Option (List Byte)) : Except ConstructError State :=
  match image with
  | none => .ok State.reset
  | some b =>
    match loadProgram b State.reset.mem with
    | some m => .ok (State.reset.setMem m)
    | none => .error { error := .programTooLarge, imageLength := b.length }

/-! ### Timers and keypad (60_exceptions.md R270 to R275) -/

/-- A timer that is nonzero counts down by one; a timer at zero stays (R270). -/
def countDown (b : Byte) : Byte := if b = 0x00#8 then b else b - 0x01#8

/-- `Tick` (R270): both timers, in one transaction. -/
def tick (s : State) : State := (s.setDt (countDown s.dt)).setSt (countDown s.st)

/-- `KeyDown(k)` (R274): the first Released-to-Pressed transition during a key wait is latched; a key already Pressed
changes nothing. -/
def keyDown (k : Key) (s : State) : State :=
  match s.readKey k with
  | .pressed => s
  | .released =>
    let latched := if s.kwait.isSome && s.klatch.isNone then s.setKlatch (some k) else s
    latched.setKey k .pressed

/-- `KeyUp(k)` (R275): KLATCH is not touched. -/
def keyUp (k : Key) (s : State) : State := s.setKey k .released

/-! ### Read-outs (R7): they have no side effect and see the state after the last transaction (R67, R122) -/

/-- The display read-out: the pixel at (X, Y). -/
def displayReadout (s : State) (X : Fin displayW) (Y : Fin displayH) : Bool := (s.disp[Y.val])[X.val]

/-- What the status read-out shows. -/
structure Status where
  fault : Option FaultRecord
  kwait : Option Reg
  st : Byte
  dt : Byte
  deriving DecidableEq, Repr

/-- The status read-out: FAULT, KWAIT, ST, DT. -/
def statusReadout (s : State) : Status := { fault := s.fault, kwait := s.kwait, st := s.st, dt := s.dt }

/-- What a Step returns to the host (R104). -/
inductive StepReturn where
  | ok
  | err (e : Chip8Error)
  deriving DecidableEq, Repr

/-- The return of the Step from `s`: `Err(E)` when it raises E, else `Ok`; none when no Step is enabled (R264). -/
def stepReturn (s : State) : Option StepReturn :=
  match step s with
  | .next t =>
    match t.fault with
    | some r => some (.err r.error)
    | none => some .ok
  | .fault _ => none
  | .refused _ => none

/-! ### Transactions in the host's order -/

/-- A transaction the host applies to a VM that exists (R7). -/
inductive Transaction where
  | step
  | tick
  | keyDown (k : Key)
  | keyUp (k : Key)
  deriving DecidableEq, Repr

/-- One transaction, atomically (R7, R58). -/
def transact (t : Transaction) (s : State) : StepOutcome :=
  match t with
  | .step => step s
  | .tick => .next (tick s)
  | .keyDown k => .next (keyDown k s)
  | .keyUp k => .next (keyUp k s)

/-- A list of transactions, one after another; it ends early at a Step that is not enabled (log 5). -/
def runTransactions : List Transaction → State → StepOutcome
  | [], s => .next s
  | t :: ts, s =>
    match transact t s with
    | .next s' => runTransactions ts s'
    | .fault r => .fault r
    | .refused r => .refused r

end Sys2Proof.Machine
end

