-- ==== Sys2Proof/Safety.lean ====
section
/-! DEFINITION. The terms that claims use: which parts of the state two states agree on (frames), the invariant of the
machine, runs without an error, and the end of a run. -/

namespace Sys2Proof.Machine

open Sys2Proof Sys2Proof.Config

/-! ### Frames -/

/-- The parts of the state, one per element of R20 and one for the model's draw counter. -/
inductive Part where
  | v | i | pc | stack | sp | dt | st | mem | disp | key | kwait | klatch | fault | draws
  deriving DecidableEq, Repr

/-- Two states agree on a part. Registers, keys, pixels and memory are compared through their reads, memory one byte at
a time at every address. -/
def Part.same (p : Part) (s t : State) : Prop :=
  match p with
  | .v => ∀ x : Reg, t.readV x = s.readV x
  | .i => t.i = s.i
  | .pc => t.pc = s.pc
  | .stack => ∀ j : Fin stackDepth, t.readStack j = s.readStack j
  | .sp => t.sp = s.sp
  | .dt => t.dt = s.dt
  | .st => t.st = s.st
  | .mem => ∀ a : Nat, t.readByte a = s.readByte a
  | .disp => ∀ (X : Fin displayW) (Y : Fin displayH), getPixel t.disp X Y = getPixel s.disp X Y
  | .key => ∀ k : Key, t.readKey k = s.readKey k
  | .kwait => t.kwait = s.kwait
  | .klatch => t.klatch = s.klatch
  | .fault => t.fault = s.fault
  | .draws => t.drawIndex = s.drawIndex

/-- `t` differs from `s` at most in the listed parts. -/
def SameExcept (parts : List Part) (s t : State) : Prop := ∀ p : Part, p ∉ parts → p.same s t

/-- `t` differs from `s` in registers at most in those that `dest` names. -/
def RegistersSameExcept (dest : Reg → Prop) (s t : State) : Prop := ∀ x : Reg, ¬ dest x → t.readV x = s.readV x

/-- Every byte of memory outside the `n` bytes from `a` on reads as before. -/
def MemorySameOutside (a n : Nat) (s t : State) : Prop :=
  ∀ b : Nat, ¬ (a ≤ b ∧ b < a + n) → t.readByte b = s.readByte b

/-- The parts that an instruction's rule lets it write, beside PC and, when it raises, FAULT (R121 to R238). -/
def writtenParts : Instr → List Part
  | .clear => [.disp]
  | .ret => [.sp]
  | .sys _ | .jump _ | .longJump _ => []
  | .call _ => [.stack, .sp]
  | .skipEqualOperand _ _ | .skipNotEqualOperand _ _ | .skipEqual _ _ | .skipNotEqual _ _ => []
  | .skipKeyPressed _ | .skipKeyNotPressed _ => []
  | .loadOperand _ _ | .addOperand _ _ => [.v]
  | .load _ _ | .or _ _ | .and _ _ | .xor _ _ => [.v]
  | .add _ _ | .sub _ _ | .shiftRight _ _ | .subNegated _ _ | .shiftLeft _ _ => [.v]
  | .loadI _ | .addI _ | .loadSprite _ => [.i]
  | .random _ _ => [.v, .draws]
  | .draw _ _ _ => [.v, .disp]
  | .loadRegisterDelayTimer _ => [.v]
  | .loadKey _ => [.kwait, .klatch]
  | .loadDelayTimerRegister _ => [.dt]
  | .loadSoundTimerRegister _ => [.st]
  | .loadBinaryCodedDecimal _ | .loadMemoryRegisters _ => [.mem]
  | .loadRegistersMemory _ => [.v]

/-- Whether an instruction may write VF: as a flag (R23's table), or as the destination register its x names. -/
def mayWriteVF : Instr → Bool
  | .add _ _ | .sub _ _ | .shiftRight _ _ | .subNegated _ _ | .shiftLeft _ _ | .draw _ _ _ => true
  | .loadOperand x _ | .addOperand x _ | .load x _ | .or x _ | .and x _ | .xor x _ => x == 15
  | .random x _ | .loadRegisterDelayTimer x | .loadRegistersMemory x => x == 15
  | .clear | .ret | .sys _ | .jump _ | .call _ | .longJump _ | .loadI _ => false
  | .skipEqualOperand _ _ | .skipNotEqualOperand _ _ | .skipEqual _ _ | .skipNotEqual _ _ => false
  | .skipKeyPressed _ | .skipKeyNotPressed _ | .loadKey _ => false
  | .loadDelayTimerRegister _ | .loadSoundTimerRegister _ | .addI _ | .loadSprite _ => false
  | .loadBinaryCodedDecimal _ | .loadMemoryRegisters _ => false

/-- Pixel (X, Y) lies under a 1 bit of a sprite of `n` rows drawn at (vx, vy) on a grid that wraps at `w` and `h` (R123,
R124): bit 7 of a row is its column 0. -/
def SpriteCovers (w h vx vy : Nat) (row : Nat → Byte) (n X Y : Nat) : Prop :=
  ∃ r c : Nat, r < n ∧ c < 8 ∧ (row r).getLsbD (7 - c) = true ∧ X = (vx + c) % w ∧ Y = (vy + r) % h

/-- How often one Draw of that sprite toggles pixel (X, Y): the number of its 1 bits that lie over the pixel (R124, R125).
At most 1 on a grid of 8 columns or more with no fewer rows than the sprite (R128 (f)). -/
def coverCount (w h vx vy : Nat) (row : Nat → Byte) (n X Y : Nat) : Nat :=
  ((List.range n).map (fun r => (List.range 8).countP (fun c =>
    (row r).getLsbD (7 - c) && X == (vx + c) % w && Y == (vy + r) % h))).sum

/-- The state after an error raised from the Step that started in `s`: FAULT holds the record and every other part is as
it was (R105, R264). -/
def RaisedFrom (s : State) (e : Chip8Error) (word : Word) (a0 : Nat) (t : State) : Prop :=
  (∃ r, t.fault = some r ∧ r.error = e ∧ r.pc = s.pc ∧ r.word = word ∧ r.addr.toNat = a0) ∧ SameExcept [.fault] s t

/-! ### The invariant -/

/-- What every reachable state satisfies, for any order of the host's transactions. -/
structure Inv (s : State) : Prop where
  /-- Memory is in its canonical form (log 7). -/
  memCanonical : Memory.wf s.mem
  /-- The largest value any instruction writes to PC is 0x10FE (R25). -/
  pcBound : s.pc.toNat ≤ 0x10FE
  /-- The largest value ever pushed is 0x1000 (R144). -/
  stackBound : ∀ j : Fin stackDepth, (s.readStack j).toNat ≤ 0x1000
  /-- During a key wait PC is at the Fx0A, which was fetched (R235, R101). -/
  waitingPc : s.kwait ≠ none → s.pc.toNat + 2 ≤ memSize
  /-- A key is latched only for a waiting Fx0A (R31, R274). -/
  latchWaits : s.klatch ≠ none → s.kwait ≠ none
  /-- No error is raised during a key wait (R100, R276). -/
  faultNotWaiting : s.fault ≠ none → s.kwait = none
  /-- An error is precise: PC is the failing Step's (R105, R264). -/
  faultPc : ∀ r, s.fault = some r → r.pc = s.pc
  /-- No Step raises InvalidRegister or ProgramTooLarge (R260, R261). -/
  faultKind : ∀ r, s.fault = some r → r.error ≠ .invalidRegister ∧ r.error ≠ .programTooLarge
  /-- The recorded address is 0 but for MemoryOutOfRange (R32), and then the access, of at most 16 bytes (R57), ends
  outside memory (R56). -/
  faultAddr : ∀ r, s.fault = some r →
    if r.error = .memoryOutOfRange then memSize < r.addr.toNat + 16 else r.addr = 0

/-! ### Runs -/

/-- A run without an error: the transactions all complete and FAULT is none at the end (R264). -/
def SafeRun (ts : List Transaction) (s : State) : Prop := ∃ t, runTransactions ts s = .next t ∧ t.fault = none

/-- The end of a run (R304): END_OF_RUN is OPEN, and this model takes the first of the spec's two candidates, "PC at a
self-jump, FAULT = none, KWAIT = none" (log 27). -/
def State.finished (s : State) : Bool :=
  s.fault.isNone && s.kwait.isNone &&
    match fetchWord s with
    | none => false
    | some w =>
      match decodeWord w with
      | .ok (.jump nnn) => addrWord nnn == s.pc
      | _ => false

end Sys2Proof.Machine
end

