-- ==== Sys2Proof/Certificates/Slice0/Obligations.lean ====
section
/-! DEFINITION. The statements for the provers: each a proposition about the machine, from a numbered rule of spec/ or
derived from its sections. `exec i` runs with PC = A + 2 (R102), so a statement that speaks of A starts from `advancePc s`,
where `s.pc` is A. -/

open Sys2Proof Sys2Proof.Config Sys2Proof.Machine

/-! ### Reset and Construct -/

/-- 70_reset_and_hazards.md R291 to R295, with each element's own rule: what `Construct` with no image leaves. The values
are the spec's decision D21, the font bytes its general knowledge G2 (logs 9, 12). -/
def Obligations.ResetLeavesEveryElementAtItsValue : Prop :=
  construct none = .ok State.reset ∧
  (∀ x : Reg, State.reset.readV x = 0) ∧ State.reset.i = 0 ∧ State.reset.pc.toNat = 0x200 ∧
  (∀ j : Fin 16, State.reset.readStack j = 0) ∧ State.reset.sp.val = 0 ∧ State.reset.dt = 0 ∧ State.reset.st = 0 ∧
  (∀ a : Nat, a < 80 → State.reset.readByte a = fontBytes.getD a 0) ∧
  (∀ a : Nat, 80 ≤ a → State.reset.readByte a = 0) ∧
  (∀ (X : Fin displayW) (Y : Fin displayH), getPixel State.reset.disp X Y = false) ∧
  (∀ k : Key, State.reset.readKey k = .released) ∧
  State.reset.kwait = none ∧ State.reset.klatch = none ∧ State.reset.fault = none

/-- 20_memory.md R60, 70_reset_and_hazards.md R293, R296: an image of at most 3584 bytes lies verbatim from 0x200 on and
nothing else differs from reset; a longer one yields ProgramTooLarge with its length and no state. -/
def Obligations.ConstructLoadsTheImageOrFails : Prop :=
  ∀ b : List Byte,
    (b.length ≤ 3584 → ∃ t, construct (some b) = .ok t ∧
      (∀ j : Nat, j < b.length → t.readByte (0x200 + j) = b.getD j 0) ∧
      MemorySameOutside 0x200 b.length State.reset t ∧ SameExcept [.mem] State.reset t) ∧
    (3584 < b.length → construct (some b) = .error { error := .programTooLarge, imageLength := b.length })

/-! ### The invariant -/

/-- The invariant of Safety.lean holds right after reset, which is Construct (70_reset_and_hazards.md R290): of `State.reset`
and of the state that Construct answers for any image, with the program in memory. -/
def Obligations.InvariantHoldsAtReset : Prop :=
  Inv State.reset ∧ ∀ (image : Option (List Byte)) (t : State), construct image = .ok t → Inv t

/-- Every Step from a state that meets the invariant gives a state that meets it (R25, R31, R101, R105, R144, R260). -/
def Obligations.StepKeepsTheInvariant : Prop := ∀ s t : State, Inv s → step s = .next t → Inv t

/-- Every list of the host's transactions keeps the invariant, in whatever order the host calls them (R107, R267). -/
def Obligations.TransactionsKeepTheInvariant : Prop :=
  ∀ (ts : List Transaction) (s t : State), Inv s → runTransactions ts s = .next t → Inv t

/-! ### Memory -/

/-- 00_scope.md R11: MemRead and MemWrite, with their bounds check at full width and the access of no byte. -/
def Obligations.MemReadAndMemWriteCheckThenAccess : Prop :=
  ∀ (m : Memory) (a : Nat),
    (∀ n : Nat, (n = 0 ∨ a + n ≤ 4096 → ∃ bs, memRead m a n = some bs ∧ bs.length = n ∧
        ∀ j : Nat, j < n → bs.getD j 0 = m.read (a + j)) ∧
      (1 ≤ n → 4096 < a + n → memRead m a n = none)) ∧
    (∀ bs : List Byte, (bs.length = 0 ∨ a + bs.length ≤ 4096 → ∃ m', memWrite m a bs = some m' ∧
        ∀ c : Nat, m'.read c = if a ≤ c ∧ c < a + bs.length then bs.getD (c - a) 0 else m.read c) ∧
      (1 ≤ bs.length → 4096 < a + bs.length → memWrite m a bs = none))

/-- The canonical form makes equal memories equal data (log 7): two canonical memories that read alike are one list. -/
def Obligations.CanonicalMemoryIsItsBytes : Prop :=
  ∀ m m' : Memory, m.wf → m'.wf → (∀ a : Nat, m.read a = m'.read a) → m = m'

/-- 20_memory.md R65 (a consequence the spec draws, decision D32; log 30): after Fx33 and after Fx55 that complete, a fetch
at any address sees every byte they have just stored, be it one byte or both of the fetched word, and the old bytes beside
them. -/
def Obligations.FetchSeesAStore : Prop :=
  ∀ (s t : State) (x : Reg) (a : Word) (bytes : List Byte), a.toNat + 2 ≤ 4096 → s.i.toNat + bytes.length ≤ 4096 →
    (exec (.loadBinaryCodedDecimal x) s = .next t ∧ bytes = decimalDigits (s.readV x)) ∨
      (exec (.loadMemoryRegisters x) s = .next t ∧ bytes = registersUpTo s x) →
    ∃ hi lo : Byte, fetchWord (t.setPc a) = some (opcodeOfBytes hi lo) ∧
      hi = (if s.i.toNat ≤ a.toNat ∧ a.toNat < s.i.toNat + bytes.length then bytes.getD (a.toNat - s.i.toNat) 0
        else s.readByte a.toNat) ∧
      lo = (if s.i.toNat ≤ a.toNat + 1 ∧ a.toNat + 1 < s.i.toNat + bytes.length then
        bytes.getD (a.toNat + 1 - s.i.toNat) 0 else s.readByte (a.toNat + 1))

/-! ### Encoding -/

/-- Decoding the bytes of any well-formed instruction, with every operand at every value, gives it back (R81, R84, R91). -/
def Obligations.DecodeOfEncodeIsTheInstruction : Prop :=
  ∀ (i : Instr) (rest : List Byte), i.wellFormed = true → decode (encodeBytes i ++ rest) = .ok (i, rest)

/-- 30_encoding.md R91: for every legal word, encode(decode(w)) = w; and what is decoded is well-formed, which no rule says
in these words but rests on R86 and the model's own notion of well-formedness (log 32). -/
def Obligations.EncodeOfDecodeIsTheWord : Prop :=
  ∀ (w : Word) (i : Instr), decodeWord w = .ok i → encode i = w ∧ i.wellFormed = true

/-- 30_encoding.md R87: the words that do not decode are exactly the five groups it lists. -/
def Obligations.IllegalWordsAreExactlyTheListedGroups : Prop :=
  ∀ w : Word, decodeWord w = .error .unknownInstruction ↔
    (w.toNat / 4096 = 0x5 ∧ w.toNat % 16 ≠ 0) ∨
    (w.toNat / 4096 = 0x8 ∧ w.toNat % 16 ∈ [0x8, 0x9, 0xA, 0xB, 0xC, 0xD, 0xF]) ∨
    (w.toNat / 4096 = 0x9 ∧ w.toNat % 16 ≠ 0) ∨
    (w.toNat / 4096 = 0xE ∧ w.toNat % 256 ∉ [0x9E, 0xA1]) ∨
    (w.toNat / 4096 = 0xF ∧ w.toNat % 256 ∉ [0x07, 0x0A, 0x15, 0x18, 0x1E, 0x29, 0x33, 0x55, 0x65])

/-- 30_encoding.md R84, R86: a decoded word fits its instruction's row, and no row of another instruction, but for Sys's
row and the two exact words that win over it. -/
def Obligations.DecodedWordFitsOneRow : Prop :=
  ∀ (w : Word) (i : Instr), decodeWord w = .ok i →
    w &&& (opcodeRow i).2 = (opcodeRow i).1 ∧
    ∀ j : Instr, w &&& (opcodeRow j).2 = (opcodeRow j).1 →
      opcodeRow j = opcodeRow i ∨ (∃ nnn, j = .sys nnn) ∧ (w = 0x00E0#16 ∨ w = 0x00EE#16)

/-- Words written out from R84 and 95_test_vectors.md T1, one or more of every family. -/
def Obligations.WordsWrittenFromTheTableDecode : Prop :=
  decodeTableWord 16 0b0000_0000_1110_0000 = some .clear ∧
  decodeTableWord 16 0b1101_0001_0010_0101 = some (.draw 1 2 5) ∧
  decodeTableWord 16 0b0010_1010_1011_1100 = some (.call 0xABC#12) ∧
  decodeTableWord 16 0b1000_0001_0010_0111 = some (.subNegated 1 2) ∧
  decodeTableWord 16 0b1111_0011_0101_0101 = some (.loadMemoryRegisters 3) ∧
  decodeTableWord 16 0b1110_0100_1001_1110 = some (.skipKeyPressed 4) ∧
  decodeTableWord 16 0b0101_0001_0010_1111 = none

/-! ### The Step -/

/-- 30_encoding.md R100 to R103: with no error recorded and no key wait pending, a Step whose two bytes at PC decode to
`i` is exec of `i` at the same state with PC advanced by 2. -/
def Obligations.StepRunsTheDecodedInstruction : Prop :=
  ∀ (s : State) (i : Instr) (rest : List Byte), s.fault = none → s.kwait = none → s.pc.toNat + 2 ≤ 4096 →
    decode (s.readByte s.pc.toNat :: s.readByte (s.pc.toNat + 1) :: rest) = .ok (i, rest) →
    step s = exec i (s.setPc (s.pc + 2))

/-- 30_encoding.md R101, R102, R105, 60_exceptions.md R262: a fetch outside memory and an illegal word raise, with PC
still A and FAULT alone written (decisions D8, D20; logs 4, 19). -/
def Obligations.FailedFetchOrDecodeRecordsTheError : Prop :=
  ∀ s : State, s.fault = none → s.kwait = none →
    (4096 < s.pc.toNat + 2 → ∃ t, step s = .next t ∧ RaisedFrom s .memoryOutOfRange 0 s.pc.toNat t) ∧
    (s.pc.toNat + 2 ≤ 4096 →
      decodeWord (opcodeOfBytes (s.readByte s.pc.toNat) (s.readByte (s.pc.toNat + 1))) = .error .unknownInstruction →
      ∃ t, step s = .next t ∧ RaisedFrom s .unknownInstruction
        (opcodeOfBytes (s.readByte s.pc.toNat) (s.readByte (s.pc.toNat + 1))) 0 t)

/-- 30_encoding.md R105, 60_exceptions.md R264 (decision D20; log 4): whatever raised it, an error is precise. -/
def Obligations.ErrorsArePrecise : Prop :=
  ∀ (s t : State) (r : FaultRecord), s.fault = none → step s = .next t → t.fault = some r →
    SameExcept [.fault] s t ∧ s.kwait = none ∧ r.pc = s.pc ∧
    r.word = (if s.pc.toNat + 2 ≤ 4096 then opcodeOfBytes (s.readByte s.pc.toNat) (s.readByte (s.pc.toNat + 1)) else 0) ∧
    (r.error = .memoryOutOfRange → r.addr.toNat = s.pc.toNat ∨ r.addr.toNat = s.i.toNat) ∧
    (r.error ≠ .memoryOutOfRange → r.addr = 0)

/-- 60_exceptions.md R264, R272, 10_state.md R32 (decision D20; log 2): after an error no Step is enabled; Tick, KeyDown
and KeyUp are, and leave FAULT. -/
def Obligations.NoStepIsEnabledAfterAnError : Prop :=
  ∀ (s : State) (r : FaultRecord), s.fault = some r →
    step s = .fault (.stepNotEnabled r) ∧
    ∀ a : Transaction, a ≠ .step → ∃ t, transact a s = .next t ∧ t.fault = some r

/-- 30_encoding.md R104, R106: with FAULT = none every Step answers a next state; no instruction is refused and none stops
the machine on the spot. -/
def Obligations.EveryEnabledStepAnswersAState : Prop := ∀ s : State, s.fault = none → ∃ t, step s = .next t

/-- 60_exceptions.md R260, R263: exactly when a dispatched instruction raises. -/
def Obligations.InstructionsRaiseExactlyOnTheirCheck : Prop :=
  ∀ (s t : State) (i : Instr), s.fault = none → exec i (advancePc s) = .next t →
    (t.fault ≠ none ↔
      (i = .ret ∧ s.sp.val = 0) ∨ (∃ nnn, i = .call nnn ∧ s.sp.val = 16) ∨
      (∃ x y n, i = .draw x y n ∧ 1 ≤ n.val ∧ 4096 < s.i.toNat + n.val) ∨
      (∃ x, i = .loadBinaryCodedDecimal x ∧ 4096 < s.i.toNat + 3) ∨
      (∃ x, i = .loadMemoryRegisters x ∧ 4096 < s.i.toNat + x.val + 1) ∨
      (∃ x, i = .loadRegistersMemory x ∧ 4096 < s.i.toNat + x.val + 1))

/-! ### Whole-machine rules -/

/-- What each instruction may write, over all 35: DISP only 00E0 and Dxyn (R34), M only Fx33 and Fx55 (R59), the stack only
Call and Return (R27), KEY none (R35), I only Annn, Fx1E and Fx29 (R26 with the default of LDST_INCREMENTS_I, log 11), the
random stream only Cxkk (R183). -/
def Obligations.InstructionsWriteOnlyTheirParts : Prop :=
  ∀ (s t : State) (i : Instr), exec i s = .next t → SameExcept (.pc :: .fault :: writtenParts i) s t

/-- 10_state.md R23 (with decisions D10, D15): VF changes only by the flag writers, Dxyn, and the instructions whose
destination is VF. -/
def Obligations.OnlyFlagWritersAndVFDestinationsChangeVF : Prop :=
  ∀ (s t : State) (i : Instr), exec i s = .next t → mayWriteVF i = false → t.readV 15 = s.readV 15

/-- 10_state.md R29: no instruction reads ST, so a different ST changes nothing but ST. -/
def Obligations.SoundTimerIsNeverRead : Prop :=
  ∀ (s t : State) (b : Byte), step s = .next t → ∃ c : Byte, step (s.setSt b) = .next (t.setSt c)

/-- 10_state.md R27: stack entries at index SP and above are stale and no Step reads them. -/
def Obligations.StaleStackEntriesAreNeverRead : Prop :=
  ∀ (s t : State) (stale : Vector Word 16), (∀ j : Fin 16, j.val < s.sp.val → stale[j.val] = s.readStack j) →
    step s = .next t →
    ∃ after : Vector Word 16, step { s with stack := stale } = .next { t with stack := after } ∧
      ∀ j : Fin 16, j.val < t.sp.val → after[j.val] = t.readStack j

/-- 70_reset_and_hazards.md R298, 41_control_flow.md R142: a run of zero words from an address A executes as no-ops, one
Step a word. -/
def Obligations.ZeroWordsRunAsNoOps : Prop :=
  ∀ (k : Nat) (s : State), s.fault = none → s.kwait = none → s.pc.toNat + 2 * k ≤ 4096 →
    (∀ a : Nat, s.pc.toNat ≤ a → a < s.pc.toNat + 2 * k → s.readByte a = 0) →
    ∃ t, Sys2Proof.core.run k s = .next t ∧ t.pc.toNat = s.pc.toNat + 2 * k ∧ SameExcept [.pc] s t

/-- 70_reset_and_hazards.md R304 (log 27): from the end of a run as this model takes it, a Step leaves the state as it is. -/
def Obligations.AFinishedRunStaysFinished : Prop := ∀ s : State, s.finished = true → step s = .next s

/-! ### Display -/

/-- 40_display.md R121: Clear turns every pixel off and changes nothing else. -/
def Obligations.ClearTurnsEveryPixelOff : Prop :=
  ∀ s : State, ∃ t, exec .clear s = .next t ∧
    (∀ (X : Fin displayW) (Y : Fin displayH), getPixel t.disp X Y = false) ∧ SameExcept [.disp] s t

/-- 40_display.md R124, R125, R127, R128 (a), (d), (f): on a grid at least 8 wide and as high as the sprite has rows, the
loops turn over exactly the pixels the sprite covers, and collide exactly when a covered pixel was on (the bit order is the
spec's general knowledge G5; log 23). Smaller grids: BlitOnAnyGridTogglesEachPixelOncePerCoveringBit. -/
def Obligations.BlitTurnsOverExactlyTheCoveredPixels : Prop :=
  ∀ (w h vx vy : Nat) [NeZero w] [NeZero h] (sprite : List Byte) (d : Grid w h), 8 ≤ w → sprite.length ≤ h →
    (∀ (X : Fin w) (Y : Fin h), getPixel (blit vx vy sprite d).1 X Y ≠ getPixel d X Y ↔
      SpriteCovers w h vx vy (fun r => sprite.getD r 0) sprite.length X.val Y.val) ∧
    ((blit vx vy sprite d).2 = true ↔ ∃ (X : Fin w) (Y : Fin h), getPixel d X Y = true ∧
      SpriteCovers w h vx vy (fun r => sprite.getD r 0) sprite.length X.val Y.val)

/-- 40_display.md R125, R126, R127, R128: a Draw whose sprite lies in memory, for every x, y and n (n = 0 draws nothing,
decision D17). The coordinates are V[x] and V[y] before VF is written. Display size and bit order are general knowledge
(logs 8, 23). -/
def Obligations.DrawXorsTheSpriteAndReportsCollision : Prop :=
  ∀ (s : State) (x y : Reg) (n : RowCount), n.val = 0 ∨ s.i.toNat + n.val ≤ 4096 →
    ∃ t, exec (.draw x y n) s = .next t ∧
      (∀ (X : Fin displayW) (Y : Fin displayH), getPixel t.disp X Y ≠ getPixel s.disp X Y ↔
        SpriteCovers 64 32 (s.readV x).toNat (s.readV y).toNat (fun r => s.readByte (s.i.toNat + r)) n.val X.val Y.val) ∧
      ((t.readV 15 = 1 ∧ ∃ (X : Fin displayW) (Y : Fin displayH), getPixel s.disp X Y = true ∧
          getPixel t.disp X Y = false) ∨
        (t.readV 15 = 0 ∧ ∀ (X : Fin displayW) (Y : Fin displayH), getPixel s.disp X Y = true →
          getPixel t.disp X Y = true)) ∧
      RegistersSameExcept (· = 15) s t ∧ SameExcept [.v, .disp] s t

/-- 40_display.md R128 (e), R127: a second Draw of the same sprite at the same place restores every pixel. Its VF is 1
exactly when the first Draw turned some pixel on, which on a clear display is when the sprite has a 1 bit (the model's
reading of R128 (e); log 33). -/
def Obligations.DrawingTwiceRestoresTheDisplay : Prop :=
  ∀ (s t u : State) (x y : Reg) (n : RowCount), n.val = 0 ∨ s.i.toNat + n.val ≤ 4096 →
    exec (.draw x y n) s = .next t → u.disp = t.disp → u.i = s.i → u.readV x = s.readV x → u.readV y = s.readV y →
    (∀ r : Nat, r < n.val → u.readByte (s.i.toNat + r) = s.readByte (s.i.toNat + r)) →
    ∃ v, exec (.draw x y n) u = .next v ∧ v.disp = s.disp ∧
      (v.readV 15 = 1 ↔ ∃ (X : Fin displayW) (Y : Fin displayH), getPixel s.disp X Y = false ∧
        getPixel t.disp X Y = true) ∧
      ((∀ (X : Fin displayW) (Y : Fin displayH), getPixel s.disp X Y = false) →
        (∃ r : Nat, r < n.val ∧ s.readByte (s.i.toNat + r) ≠ 0) → v.readV 15 = 1)

/-! ### Control flow -/

/-- 41_control_flow.md R142: Sys changes nothing, for every nnn. -/
def Obligations.SysChangesNothing : Prop := ∀ (s : State) (nnn : Addr), ∃ t, exec (.sys nnn) s = .next t ∧ SameExcept [] s t

/-- 41_control_flow.md R143, 43_index_memory.md R201: Jump writes PC and LoadI writes I, with nnn zero-extended. -/
def Obligations.JumpAndLoadIWriteTheAddress : Prop :=
  ∀ (s : State) (nnn : Addr),
    (∃ t, exec (.jump nnn) s = .next t ∧ t.pc.toNat = nnn.toNat ∧ SameExcept [.pc] s t) ∧
    (∃ t, exec (.loadI nnn) s = .next t ∧ t.i.toNat = nnn.toNat ∧ SameExcept [.i] s t)

/-- 41_control_flow.md R144, R145: a Call with room pushes A + 2, the PC it sees, and jumps. -/
def Obligations.CallPushesTheReturnAddress : Prop :=
  ∀ (s : State) (nnn : Addr), s.sp.val < 16 → ∃ t, exec (.call nnn) s = .next t ∧ t.pc.toNat = nnn.toNat ∧
    t.sp.val = s.sp.val + 1 ∧
    (∀ j : Fin 16, t.readStack j = if j.val = s.sp.val then s.pc else s.readStack j) ∧ SameExcept [.pc, .stack, .sp] s t

/-- 41_control_flow.md R141: a Return with an entry in use pops it into PC; the entry keeps its value. -/
def Obligations.ReturnPopsIntoPc : Prop :=
  ∀ (s : State) (j : Fin 16), s.sp.val = j.val + 1 → ∃ t, exec .ret s = .next t ∧ t.pc = s.readStack j ∧
    t.sp.val = j.val ∧ SameExcept [.pc, .sp] s t

/-- 41_control_flow.md R140, R141, R144, R145: a Return that finds the stack as a Call left it comes back to the word
after the Call, at the depth before it. -/
def Obligations.ReturnUndoesCall : Prop :=
  ∀ (s t u : State) (nnn : Addr), s.sp.val < 16 → exec (.call nnn) (advancePc s) = .next t →
    u.sp = t.sp → (∀ j : Fin 16, u.readStack j = t.readStack j) → ∃ v, exec .ret u = .next v ∧ v.pc = s.pc + 2 ∧ v.sp = s.sp

/-- 41_control_flow.md R141, R145, 30_encoding.md R105 (decisions D19, D20): the two stack errors, with nothing else
written. -/
def Obligations.StackErrorsLeaveTheState : Prop :=
  ∀ (s : State) (nnn : Addr),
    (s.sp.val = 16 → ∃ t, exec (.call nnn) (advancePc s) = .next t ∧
      RaisedFrom s .stackOverflow (encode (.call nnn)) 0 t) ∧
    (s.sp.val = 0 → ∃ t, exec .ret (advancePc s) = .next t ∧ RaisedFrom s .stackUnderflow 0x00EE 0 t)

/-- 41_control_flow.md R146 to R150: the register skips leave PC at A + 4 when their condition holds and at A + 2 when not,
and change nothing else. That 4xkk skips on inequality is the spec's own reading of "on match" (R148, 90_conflicts.md C6;
log 31). -/
def Obligations.RegisterSkipsMovePcOnTheirCondition : Prop :=
  ∀ (s : State) (x y : Reg) (kk : Byte),
    (∃ t, exec (.skipEqualOperand x kk) (advancePc s) = .next t ∧
      t.pc = s.pc + (if s.readV x = kk then 4 else 2) ∧ SameExcept [.pc] s t) ∧
    (∃ t, exec (.skipNotEqualOperand x kk) (advancePc s) = .next t ∧
      t.pc = s.pc + (if s.readV x = kk then 2 else 4) ∧ SameExcept [.pc] s t) ∧
    (∃ t, exec (.skipEqual x y) (advancePc s) = .next t ∧
      t.pc = s.pc + (if s.readV x = s.readV y then 4 else 2) ∧ SameExcept [.pc] s t) ∧
    (∃ t, exec (.skipNotEqual x y) (advancePc s) = .next t ∧
      t.pc = s.pc + (if s.readV x = s.readV y then 2 else 4) ∧ SameExcept [.pc] s t)

/-- 44_keypad_timers.md R231 to R233 (the low nibble is decision D12): the key skips test the level of key V[x] mod 16. -/
def Obligations.KeySkipsTestTheKeyOfTheLowNibble : Prop :=
  ∀ (s : State) (x : Reg) (k : Key), k.val = (s.readV x).toNat % 16 →
    (∃ t, exec (.skipKeyPressed x) (advancePc s) = .next t ∧
      t.pc = s.pc + (if s.readKey k = .pressed then 4 else 2) ∧ SameExcept [.pc] s t) ∧
    (∃ t, exec (.skipKeyNotPressed x) (advancePc s) = .next t ∧
      t.pc = s.pc + (if s.readKey k = .pressed then 2 else 4) ∧ SameExcept [.pc] s t)

/-- 41_control_flow.md R151 (no masking is decision D9): LongJump's target is nnn + V0, at most 0x10FE. -/
def Obligations.LongJumpAddsV0WithoutMasking : Prop :=
  ∀ (s : State) (nnn : Addr), ∃ t, exec (.longJump nnn) s = .next t ∧ t.pc.toNat = nnn.toNat + (s.readV 0).toNat ∧
    t.pc.toNat ≤ 0x10FE ∧ SameExcept [.pc] s t

/-! ### Register file and ALU -/

/-- 42_alu.md R171, R172: LoadOperand and AddOperand write V[x] alone, x = F as data. -/
def Obligations.ImmediateFormsWriteOnlyVx : Prop :=
  ∀ (s : State) (x : Reg) (kk : Byte),
    (∃ t, exec (.loadOperand x kk) s = .next t ∧ t.readV x = kk ∧ RegistersSameExcept (· = x) s t ∧
      SameExcept [.v] s t) ∧
    (∃ t, exec (.addOperand x kk) s = .next t ∧ (t.readV x).toNat = ((s.readV x).toNat + kk.toNat) % 256 ∧
      RegistersSameExcept (· = x) s t ∧ SameExcept [.v] s t)

/-- 42_alu.md R173: Load copies V[y] to V[x] and writes nothing else. -/
def Obligations.LoadCopiesVyToVx : Prop :=
  ∀ (s : State) (x y : Reg), ∃ t, exec (.load x y) s = .next t ∧ t.readV x = s.readV y ∧
    RegistersSameExcept (· = x) s t ∧ SameExcept [.v] s t

/-- 42_alu.md R174 to R176: the logic operations, bit by bit; VF is written only as V[x] (decision D15, sub-opcodes G3). -/
def Obligations.LogicOperationsWorkBitByBit : Prop :=
  ∀ (s : State) (x y : Reg),
    (∃ t, exec (.or x y) s = .next t ∧
      (∀ k : Nat, k < 8 → (t.readV x).getLsbD k = ((s.readV x).getLsbD k || (s.readV y).getLsbD k)) ∧
      RegistersSameExcept (· = x) s t ∧ SameExcept [.v] s t) ∧
    (∃ t, exec (.and x y) s = .next t ∧
      (∀ k : Nat, k < 8 → (t.readV x).getLsbD k = ((s.readV x).getLsbD k && (s.readV y).getLsbD k)) ∧
      RegistersSameExcept (· = x) s t ∧ SameExcept [.v] s t) ∧
    (∃ t, exec (.xor x y) s = .next t ∧
      (∀ k : Nat, k < 8 → (t.readV x).getLsbD k = ((s.readV x).getLsbD k != (s.readV y).getLsbD k)) ∧
      RegistersSameExcept (· = x) s t ∧ SameExcept [.v] s t)

/-- 42_alu.md R178: Add writes the 9-bit sum's low byte to V[x], then its bit 8 to VF. That VF is the carry for x = F too
rests on R177's order of the two writes (decision D14; log 14). -/
def Obligations.AddWritesSumThenCarry : Prop :=
  ∀ (s : State) (x y : Reg), ∃ t, exec (.add x y) s = .next t ∧
    (x ≠ 15 → (t.readV x).toNat = ((s.readV x).toNat + (s.readV y).toNat) % 256) ∧
    (t.readV 15).toNat = ((s.readV x).toNat + (s.readV y).toNat) / 256 ∧
    RegistersSameExcept (fun r => r = x ∨ r = 15) s t ∧ SameExcept [.v] s t

/-- 42_alu.md R179: Sub writes V[x] - V[y] modulo 256, then VF = 1 exactly when there is no borrow. That VF is the flag for
x = F too rests on R177's order of the two writes (decision D14; log 14). -/
def Obligations.SubWritesDifferenceThenNoBorrow : Prop :=
  ∀ (s : State) (x y : Reg), ∃ t, exec (.sub x y) s = .next t ∧
    (x ≠ 15 → (t.readV x).toNat = ((s.readV x).toNat + 256 - (s.readV y).toNat) % 256) ∧
    (t.readV 15).toNat = (if (s.readV y).toNat ≤ (s.readV x).toNat then 1 else 0) ∧
    RegistersSameExcept (fun r => r = x ∨ r = 15) s t ∧ SameExcept [.v] s t

/-- 42_alu.md R181 (the formula Vy - Vx is general knowledge G7; log 24): SubNegated; for x = F VF is the flag (R177,
decision D14; log 14). -/
def Obligations.SubNegatedWritesReverseDifference : Prop :=
  ∀ (s : State) (x y : Reg), ∃ t, exec (.subNegated x y) s = .next t ∧
    (x ≠ 15 → (t.readV x).toNat = ((s.readV y).toNat + 256 - (s.readV x).toNat) % 256) ∧
    (t.readV 15).toNat = (if (s.readV x).toNat ≤ (s.readV y).toNat then 1 else 0) ∧
    RegistersSameExcept (fun r => r = x ∨ r = 15) s t ∧ SameExcept [.v] s t

/-- 42_alu.md R177 (decision D14; log 14), R180, R182 (SHIFT_SRC is decision D13; log 10): both shifts, for both values of
SHIFT_SRC; the instructions take VX. -/
def Obligations.ShiftsMoveOneBitIntoVF : Prop :=
  (∀ (s : State) (x y : Reg) (src : ShiftSrc) (a : Nat), a = (s.readV (if src = .vx then x else y)).toNat →
    (x ≠ 15 → ((shiftRightFrom src x y s).readV x).toNat = a / 2) ∧
    ((shiftRightFrom src x y s).readV 15).toNat = a % 2 ∧
    RegistersSameExcept (fun r => r = x ∨ r = 15) s (shiftRightFrom src x y s) ∧
    SameExcept [.v] s (shiftRightFrom src x y s) ∧
    (x ≠ 15 → ((shiftLeftFrom src x y s).readV x).toNat = a * 2 % 256) ∧
    ((shiftLeftFrom src x y s).readV 15).toNat = a / 128 ∧
    RegistersSameExcept (fun r => r = x ∨ r = 15) s (shiftLeftFrom src x y s) ∧
    SameExcept [.v] s (shiftLeftFrom src x y s)) ∧
  (∀ (s : State) (x y : Reg), exec (.shiftRight x y) s = .next (shiftRightFrom .vx x y s) ∧
    exec (.shiftLeft x y) s = .next (shiftLeftFrom .vx x y s))

/-- 42_alu.md R183 (the draw is free, decision D25; log 1): Random ands the next byte of the stream with kk, consumes that
one byte, and writes V[x] alone, whatever the byte is. -/
def Obligations.RandomAndsTheDrawWithTheByte : Prop :=
  (∀ (s : State) (x : Reg) (kk : Byte), exec (.random x kk) s = .next (randomWith (freeByte s.drawIndex) x kk s)) ∧
  (∀ (rand : Byte) (s : State) (x : Reg) (kk : Byte),
    (∀ k : Nat, k < 8 → ((randomWith rand x kk s).readV x).getLsbD k = (rand.getLsbD k && kk.getLsbD k)) ∧
    (randomWith rand x kk s).drawIndex = s.drawIndex + 1 ∧
    RegistersSameExcept (· = x) s (randomWith rand x kk s) ∧ SameExcept [.v, .draws] s (randomWith rand x kk s))

/-! ### Index register and memory transfers -/

/-- 43_index_memory.md R202, R203 (decisions D10, D11, D12; logs 9, 13, 18): AddI wraps at 2^16 and writes no flag; the glyph
of digit V[x] mod 16 is at 5 times the digit, and holds that digit's font bytes at reset. -/
def Obligations.AddIAndLoadSpriteWriteI : Prop :=
  ∀ (s : State) (x : Reg),
    (∃ t, exec (.addI x) s = .next t ∧ t.i.toNat = (s.i.toNat + (s.readV x).toNat) % 65536 ∧ SameExcept [.i] s t) ∧
    (∃ t, exec (.loadSprite x) s = .next t ∧ t.i.toNat = 5 * ((s.readV x).toNat % 16) ∧ SameExcept [.i] s t ∧
      ∀ r : Nat, r < 5 → State.reset.readByte (t.i.toNat + r) = fontBytes.getD (5 * ((s.readV x).toNat % 16) + r) 0)

/-- 43_index_memory.md R205: the three decimal digits of V[x] go to I, I+1, I+2; every other byte and all else stay. -/
def Obligations.BcdStoresTheThreeDigits : Prop :=
  ∀ (s : State) (x : Reg), s.i.toNat + 3 ≤ 4096 → ∃ t, exec (.loadBinaryCodedDecimal x) s = .next t ∧
    (t.readByte s.i.toNat).toNat * 100 + (t.readByte (s.i.toNat + 1)).toNat * 10 +
      (t.readByte (s.i.toNat + 2)).toNat = (s.readV x).toNat ∧
    (t.readByte (s.i.toNat + 1)).toNat ≤ 9 ∧ (t.readByte (s.i.toNat + 2)).toNat ≤ 9 ∧
    MemorySameOutside s.i.toNat 3 s t ∧ SameExcept [.mem] s t

/-- 43_index_memory.md R206, 10_state.md R22 (I unchanged is decision D16; log 11): V[0] to V[x] go to I, I+1, ..., for
both values of LDST_INCREMENTS_I. -/
def Obligations.BlockStoreWritesV0ToVx : Prop :=
  ∀ (s : State) (x : Reg), s.i.toNat + x.val + 1 ≤ 4096 →
    (∃ t, exec (.loadMemoryRegisters x) s = .next t ∧
      (∀ j : Reg, j ≤ x → t.readByte (s.i.toNat + j.val) = s.readV j) ∧
      MemorySameOutside s.i.toNat (x.val + 1) s t ∧ SameExcept [.mem] s t) ∧
    (∀ m : Memory, (blockStored true x s m).i.toNat = s.i.toNat + x.val + 1 ∧ (blockStored true x s m).mem = m ∧
      SameExcept [.i, .mem] s (blockStored true x s m))

/-- 43_index_memory.md R207, 10_state.md R22 (I unchanged is decision D16; log 11): V[0] to V[x] come from I, I+1, ..., and
the registers above V[x] stay; for both values of LDST_INCREMENTS_I. -/
def Obligations.BlockLoadReadsV0ToVx : Prop :=
  ∀ (s : State) (x : Reg), s.i.toNat + x.val + 1 ≤ 4096 →
    (∃ t, exec (.loadRegistersMemory x) s = .next t ∧
      (∀ j : Reg, j ≤ x → t.readV j = s.readByte (s.i.toNat + j.val)) ∧
      RegistersSameExcept (· ≤ x) s t ∧ SameExcept [.v] s t) ∧
    (∀ bs : List Byte, (blockLoaded true x s bs).i.toNat = s.i.toNat + x.val + 1 ∧
      SameExcept [.i, .v] s (blockLoaded true x s bs) ∧ ∀ j : Reg, (blockLoaded true x s bs).readV j = (blockLoaded false x s bs).readV j)

/-- 43_index_memory.md R206, R207: a block load from where a block store put the registers gives them back. -/
def Obligations.BlockLoadUndoesBlockStore : Prop :=
  ∀ (s t u : State) (x : Reg), s.i.toNat + x.val + 1 ≤ 4096 → exec (.loadMemoryRegisters x) s = .next t →
    u.i = s.i → u.mem = t.mem → ∃ v, exec (.loadRegistersMemory x) u = .next v ∧ ∀ j : Reg, j ≤ x → v.readV j = s.readV j

/-- 20_memory.md R56, R58, 40_display.md R126, 43_index_memory.md R205 to R207 (decision D8; log 19): a data access that
would leave memory raises MemoryOutOfRange(I) and has none of its effect. -/
def Obligations.OutOfRangeAccessesRaiseAtI : Prop :=
  ∀ (s : State) (x y : Reg) (n : RowCount),
    (1 ≤ n.val → 4096 < s.i.toNat + n.val → ∃ t, exec (.draw x y n) (advancePc s) = .next t ∧
      RaisedFrom s .memoryOutOfRange (encode (.draw x y n)) s.i.toNat t) ∧
    (4096 < s.i.toNat + 3 → ∃ t, exec (.loadBinaryCodedDecimal x) (advancePc s) = .next t ∧
      RaisedFrom s .memoryOutOfRange (encode (.loadBinaryCodedDecimal x)) s.i.toNat t) ∧
    (4096 < s.i.toNat + x.val + 1 → ∃ t, exec (.loadMemoryRegisters x) (advancePc s) = .next t ∧
      RaisedFrom s .memoryOutOfRange (encode (.loadMemoryRegisters x)) s.i.toNat t) ∧
    (4096 < s.i.toNat + x.val + 1 → ∃ t, exec (.loadRegistersMemory x) (advancePc s) = .next t ∧
      RaisedFrom s .memoryOutOfRange (encode (.loadRegistersMemory x)) s.i.toNat t)

/-! ### Timers, keypad and the key wait -/

/-- 44_keypad_timers.md R234, R237, R238: the timer instructions move one byte between V[x] and a timer. -/
def Obligations.TimerInstructionsMoveOneByte : Prop :=
  ∀ (s : State) (x : Reg),
    (∃ t, exec (.loadRegisterDelayTimer x) s = .next t ∧ t.readV x = s.dt ∧ RegistersSameExcept (· = x) s t ∧
      SameExcept [.v] s t) ∧
    (∃ t, exec (.loadDelayTimerRegister x) s = .next t ∧ t.dt = s.readV x ∧ SameExcept [.dt] s t) ∧
    (∃ t, exec (.loadSoundTimerRegister x) s = .next t ∧ t.st = s.readV x ∧ SameExcept [.st] s t)

/-- 60_exceptions.md R270: Tick counts each nonzero timer down by one, a zero timer stays (natural subtraction), and
nothing else changes. -/
def Obligations.TickCountsBothTimersDown : Prop :=
  ∀ s : State, (tick s).dt.toNat = s.dt.toNat - 1 ∧ (tick s).st.toNat = s.st.toNat - 1 ∧
    SameExcept [.dt, .st] s (tick s)

/-- 60_exceptions.md R274, R275 (decisions D18, D33; log 17): KeyDown and KeyUp move one key; a KeyDown latches its key
exactly when it is a Released-to-Pressed transition during a key wait with nothing latched yet. -/
def Obligations.KeyTransactionsMoveOneKey : Prop :=
  ∀ (s : State) (k : Key),
    (∀ l : Key, (keyDown k s).readKey l = if l = k then .pressed else s.readKey l) ∧
    (keyDown k s).klatch =
      (if s.readKey k = .released ∧ s.kwait ≠ none ∧ s.klatch = none then some k else s.klatch) ∧
    SameExcept [.key, .klatch] s (keyDown k s) ∧
    (∀ l : Key, (keyUp k s).readKey l = if l = k then .released else s.readKey l) ∧
    SameExcept [.key] s (keyUp k s)

/-- 44_keypad_timers.md R235 (decision D18; log 17): LoadKey enters the wait for V[x] with no key latched and PC back at
A, and changes nothing else. -/
def Obligations.LoadKeyEntersTheWaitAndHoldsPc : Prop :=
  ∀ (s : State) (x : Reg), ∃ t, exec (.loadKey x) (advancePc s) = .next t ∧ t.kwait = some x ∧ t.klatch = none ∧
    t.pc = s.pc ∧ SameExcept [.kwait, .klatch] s t

/-- 30_encoding.md R100 (decision D18; log 17): a Step during a key wait fetches nothing; without a latched key it changes
nothing, with one it writes V[x], ends the wait and moves PC to A + 2. -/
def Obligations.KeyWaitPollConsumesALatchedKey : Prop :=
  ∀ (s : State) (x : Reg), s.fault = none → s.kwait = some x →
    (s.klatch = none → ∃ t, step s = .next t ∧ SameExcept [] s t) ∧
    (∀ k : Key, s.klatch = some k → ∃ t, step s = .next t ∧ (t.readV x).toNat = k.val ∧ t.kwait = none ∧
      t.klatch = none ∧ t.pc = s.pc + 2 ∧ RegistersSameExcept (· = x) s t ∧ SameExcept [.v, .kwait, .klatch, .pc] s t)

/-- 44_keypad_timers.md R236 (d), 60_exceptions.md R272, R276: while no key goes down, any number of Steps, Ticks and KeyUps
leaves the machine waiting, with only the timers and keys moving. -/
def Obligations.TheWaitLastsUntilAKeyGoesDown : Prop :=
  ∀ (ts : List Transaction) (s : State) (x : Reg), s.fault = none → s.kwait = some x → s.klatch = none →
    (∀ k : Key, .keyDown k ∉ ts) → ∃ t, runTransactions ts s = .next t ∧ SameExcept [.dt, .st, .key] s t

/-- 44_keypad_timers.md R236 (b), (c): the first key latched is the one written, whatever keys go down or up and however
often the timers tick before the next Step. -/
def Obligations.TheFirstLatchedKeyIsTheOneWritten : Prop :=
  ∀ (ts : List Transaction) (s : State) (x : Reg) (k : Key), s.fault = none → s.kwait = some x → s.klatch = some k →
    .step ∉ ts → ∃ t, runTransactions (ts ++ [.step]) s = .next t ∧ (t.readV x).toNat = k.val ∧ t.kwait = none ∧
      t.klatch = none ∧ t.pc = s.pc + 2 ∧ RegistersSameExcept (· = x) s t

/-! ### Display, grids of every size -/

/-- 40_display.md R125, R127, R128 (f): on a grid of any size, a pixel is toggled once for each 1 bit over it, so it changes
exactly when their number is odd; and the Draw collides exactly when a covered pixel was on, or some pixel is toggled more
than once, on and then off again (the bit order is the spec's general knowledge G5; log 23). -/
def Obligations.BlitOnAnyGridTogglesEachPixelOncePerCoveringBit : Prop :=
  ∀ (w h vx vy : Nat) [NeZero w] [NeZero h] (sprite : List Byte) (d : Grid w h),
    (∀ (X : Fin w) (Y : Fin h), getPixel (blit vx vy sprite d).1 X Y ≠ getPixel d X Y ↔
      coverCount w h vx vy (fun r => sprite.getD r 0) sprite.length X.val Y.val % 2 = 1) ∧
    ((blit vx vy sprite d).2 = true ↔ ∃ (X : Fin w) (Y : Fin h),
      (getPixel d X Y = true ∧ 1 ≤ coverCount w h vx vy (fun r => sprite.getD r 0) sprite.length X.val Y.val) ∨
      2 ≤ coverCount w h vx vy (fun r => sprite.getD r 0) sprite.length X.val Y.val)
end

