-- ==== Sys2Proof/Laws/Decode.lean ====
section
/-! SUPPORT. The fields of a word (30_encoding.md R81) as numbers, the formats of the encoder as numbers, and the bytes of
a word (20_memory.md R52). -/

namespace Sys2Proof

/-! ### Fields as numbers -/

@[simp] theorem toNat_opField (w : Word) : (opField w).toNat = w.toNat / 4096 := by
  have := w.isLt
  simp [opField, BitVec.extractLsb'_toNat, Nat.shiftRight_eq_div_pow]
  omega

@[simp] theorem val_xField (w : Word) : (xField w).val = w.toNat / 256 % 16 := by
  simp [xField, BitVec.extractLsb'_toNat, Nat.shiftRight_eq_div_pow]

@[simp] theorem val_yField (w : Word) : (yField w).val = w.toNat / 16 % 16 := by
  simp [yField, BitVec.extractLsb'_toNat, Nat.shiftRight_eq_div_pow]

@[simp] theorem val_nField (w : Word) : (nField w).val = w.toNat % 16 := by
  simp [nField, BitVec.extractLsb'_toNat]

@[simp] theorem toNat_kkField (w : Word) : (kkField w).toNat = w.toNat % 256 := by
  simp [kkField, BitVec.extractLsb'_toNat]

@[simp] theorem toNat_nnnField (w : Word) : (nnnField w).toNat = w.toNat % 4096 := by
  simp [nnnField, BitVec.extractLsb'_toNat]

/-! ### Formats as numbers -/

@[simp] theorem toNat_nibbleBits (r : Fin 16) : (nibbleBits r).toNat = r.val := by
  have := r.isLt
  simp [nibbleBits]

/-- Concatenation on numbers: the left value above the right one's bits. -/
theorem toNat_append_eq {m n : Nat} (a : BitVec m) (b : BitVec n) : (a ++ b).toNat = a.toNat * 2 ^ n + b.toNat := by
  rw [BitVec.toNat_append, ← Nat.shiftLeft_add_eq_or_of_lt b.isLt, Nat.shiftLeft_eq]

theorem toNat_formatA (op : BitVec 4) (nnn : Addr) : (formatA op nnn).toNat = op.toNat * 4096 + nnn.toNat := by
  exact toNat_append_eq op nnn

theorem toNat_formatXK (op : BitVec 4) (x : Reg) (kk : Byte) :
    (formatXK op x kk).toNat = op.toNat * 4096 + x.val * 256 + kk.toNat := by
  simp only [formatXK, toNat_append_eq, toNat_nibbleBits]; omega

theorem toNat_formatXYN (op : BitVec 4) (x y : Reg) (n : BitVec 4) :
    (formatXYN op x y n).toNat = op.toNat * 4096 + x.val * 256 + y.val * 16 + n.toNat := by
  simp only [formatXYN, toNat_append_eq, toNat_nibbleBits]; omega

/-! ### Bytes of a word -/

/-- Laying a word out high byte first and fetching it gives the word back (R52). -/
@[simp] theorem opcodeOfBytes_high_low (w : Word) : opcodeOfBytes (highByte w) (lowByte w) = w := by
  apply BitVec.eq_of_toNat_eq
  have := w.isLt
  simp only [opcodeOfBytes, toNat_append_eq, highByte, lowByte, BitVec.extractLsb'_toNat, Nat.shiftRight_eq_div_pow]
  omega

@[simp] theorem toNat_opcodeOfBytes (hi lo : Byte) : (opcodeOfBytes hi lo).toNat = hi.toNat * 256 + lo.toNat := by
  exact toNat_append_eq hi lo

/-- Decoding an instruction's own bytes is decoding its word (R52, R80). -/
theorem decode_encodeBytes_append (i : Instr) (rest : List Byte) :
    decode (encodeBytes i ++ rest) =
      match decodeWord (encode i) with
      | .ok j => .ok (j, rest)
      | .error e => .error e := by
  cases h : decodeWord (encode i) <;> simp [encodeBytes, decode, h]

end Sys2Proof
end

