-- ==== Sys2Proof/Laws/State.lean ====
section
/-! SUPPORT. The small lemmas of the state record: what each field is after each update of Machine/Ops.lean, and what each
read gives after each update. Later proofs cite these and never unfold an update. -/

namespace Sys2Proof.Machine

open Sys2Proof Sys2Proof.Config

variable (s : State)

/-! ### `State.setV` -/

@[simp] theorem State.setV_v (x : Reg) (b : Byte) : (s.setV x b).v = s.v.set x.val b := rfl
@[simp] theorem State.setV_i (x : Reg) (b : Byte) : (s.setV x b).i = s.i := rfl
@[simp] theorem State.setV_pc (x : Reg) (b : Byte) : (s.setV x b).pc = s.pc := rfl
@[simp] theorem State.setV_stack (x : Reg) (b : Byte) : (s.setV x b).stack = s.stack := rfl
@[simp] theorem State.setV_sp (x : Reg) (b : Byte) : (s.setV x b).sp = s.sp := rfl
@[simp] theorem State.setV_dt (x : Reg) (b : Byte) : (s.setV x b).dt = s.dt := rfl
@[simp] theorem State.setV_st (x : Reg) (b : Byte) : (s.setV x b).st = s.st := rfl
@[simp] theorem State.setV_mem (x : Reg) (b : Byte) : (s.setV x b).mem = s.mem := rfl
@[simp] theorem State.setV_disp (x : Reg) (b : Byte) : (s.setV x b).disp = s.disp := rfl
@[simp] theorem State.setV_key (x : Reg) (b : Byte) : (s.setV x b).key = s.key := rfl
@[simp] theorem State.setV_kwait (x : Reg) (b : Byte) : (s.setV x b).kwait = s.kwait := rfl
@[simp] theorem State.setV_klatch (x : Reg) (b : Byte) : (s.setV x b).klatch = s.klatch := rfl
@[simp] theorem State.setV_fault (x : Reg) (b : Byte) : (s.setV x b).fault = s.fault := rfl
@[simp] theorem State.setV_drawIndex (x : Reg) (b : Byte) : (s.setV x b).drawIndex = s.drawIndex := rfl

/-! ### `State.setVs` -/

@[simp] theorem State.setVs_v (v : Vector Byte numV) : (s.setVs v).v = v := rfl
@[simp] theorem State.setVs_i (v : Vector Byte numV) : (s.setVs v).i = s.i := rfl
@[simp] theorem State.setVs_pc (v : Vector Byte numV) : (s.setVs v).pc = s.pc := rfl
@[simp] theorem State.setVs_stack (v : Vector Byte numV) : (s.setVs v).stack = s.stack := rfl
@[simp] theorem State.setVs_sp (v : Vector Byte numV) : (s.setVs v).sp = s.sp := rfl
@[simp] theorem State.setVs_dt (v : Vector Byte numV) : (s.setVs v).dt = s.dt := rfl
@[simp] theorem State.setVs_st (v : Vector Byte numV) : (s.setVs v).st = s.st := rfl
@[simp] theorem State.setVs_mem (v : Vector Byte numV) : (s.setVs v).mem = s.mem := rfl
@[simp] theorem State.setVs_disp (v : Vector Byte numV) : (s.setVs v).disp = s.disp := rfl
@[simp] theorem State.setVs_key (v : Vector Byte numV) : (s.setVs v).key = s.key := rfl
@[simp] theorem State.setVs_kwait (v : Vector Byte numV) : (s.setVs v).kwait = s.kwait := rfl
@[simp] theorem State.setVs_klatch (v : Vector Byte numV) : (s.setVs v).klatch = s.klatch := rfl
@[simp] theorem State.setVs_fault (v : Vector Byte numV) : (s.setVs v).fault = s.fault := rfl
@[simp] theorem State.setVs_drawIndex (v : Vector Byte numV) : (s.setVs v).drawIndex = s.drawIndex := rfl

/-! ### `State.setI` -/

@[simp] theorem State.setI_v (a : Word) : (s.setI a).v = s.v := rfl
@[simp] theorem State.setI_i (a : Word) : (s.setI a).i = a := rfl
@[simp] theorem State.setI_pc (a : Word) : (s.setI a).pc = s.pc := rfl
@[simp] theorem State.setI_stack (a : Word) : (s.setI a).stack = s.stack := rfl
@[simp] theorem State.setI_sp (a : Word) : (s.setI a).sp = s.sp := rfl
@[simp] theorem State.setI_dt (a : Word) : (s.setI a).dt = s.dt := rfl
@[simp] theorem State.setI_st (a : Word) : (s.setI a).st = s.st := rfl
@[simp] theorem State.setI_mem (a : Word) : (s.setI a).mem = s.mem := rfl
@[simp] theorem State.setI_disp (a : Word) : (s.setI a).disp = s.disp := rfl
@[simp] theorem State.setI_key (a : Word) : (s.setI a).key = s.key := rfl
@[simp] theorem State.setI_kwait (a : Word) : (s.setI a).kwait = s.kwait := rfl
@[simp] theorem State.setI_klatch (a : Word) : (s.setI a).klatch = s.klatch := rfl
@[simp] theorem State.setI_fault (a : Word) : (s.setI a).fault = s.fault := rfl
@[simp] theorem State.setI_drawIndex (a : Word) : (s.setI a).drawIndex = s.drawIndex := rfl

/-! ### `State.setPc` -/

@[simp] theorem State.setPc_v (a : Word) : (s.setPc a).v = s.v := rfl
@[simp] theorem State.setPc_i (a : Word) : (s.setPc a).i = s.i := rfl
@[simp] theorem State.setPc_pc (a : Word) : (s.setPc a).pc = a := rfl
@[simp] theorem State.setPc_stack (a : Word) : (s.setPc a).stack = s.stack := rfl
@[simp] theorem State.setPc_sp (a : Word) : (s.setPc a).sp = s.sp := rfl
@[simp] theorem State.setPc_dt (a : Word) : (s.setPc a).dt = s.dt := rfl
@[simp] theorem State.setPc_st (a : Word) : (s.setPc a).st = s.st := rfl
@[simp] theorem State.setPc_mem (a : Word) : (s.setPc a).mem = s.mem := rfl
@[simp] theorem State.setPc_disp (a : Word) : (s.setPc a).disp = s.disp := rfl
@[simp] theorem State.setPc_key (a : Word) : (s.setPc a).key = s.key := rfl
@[simp] theorem State.setPc_kwait (a : Word) : (s.setPc a).kwait = s.kwait := rfl
@[simp] theorem State.setPc_klatch (a : Word) : (s.setPc a).klatch = s.klatch := rfl
@[simp] theorem State.setPc_fault (a : Word) : (s.setPc a).fault = s.fault := rfl
@[simp] theorem State.setPc_drawIndex (a : Word) : (s.setPc a).drawIndex = s.drawIndex := rfl

/-! ### `State.setStackEntry` -/

@[simp] theorem State.setStackEntry_v (j : Fin stackDepth) (a : Word) : (s.setStackEntry j a).v = s.v := rfl
@[simp] theorem State.setStackEntry_i (j : Fin stackDepth) (a : Word) : (s.setStackEntry j a).i = s.i := rfl
@[simp] theorem State.setStackEntry_pc (j : Fin stackDepth) (a : Word) : (s.setStackEntry j a).pc = s.pc := rfl
@[simp] theorem State.setStackEntry_stack (j : Fin stackDepth) (a : Word) : (s.setStackEntry j a).stack = s.stack.set j.val a := rfl
@[simp] theorem State.setStackEntry_sp (j : Fin stackDepth) (a : Word) : (s.setStackEntry j a).sp = s.sp := rfl
@[simp] theorem State.setStackEntry_dt (j : Fin stackDepth) (a : Word) : (s.setStackEntry j a).dt = s.dt := rfl
@[simp] theorem State.setStackEntry_st (j : Fin stackDepth) (a : Word) : (s.setStackEntry j a).st = s.st := rfl
@[simp] theorem State.setStackEntry_mem (j : Fin stackDepth) (a : Word) : (s.setStackEntry j a).mem = s.mem := rfl
@[simp] theorem State.setStackEntry_disp (j : Fin stackDepth) (a : Word) : (s.setStackEntry j a).disp = s.disp := rfl
@[simp] theorem State.setStackEntry_key (j : Fin stackDepth) (a : Word) : (s.setStackEntry j a).key = s.key := rfl
@[simp] theorem State.setStackEntry_kwait (j : Fin stackDepth) (a : Word) : (s.setStackEntry j a).kwait = s.kwait := rfl
@[simp] theorem State.setStackEntry_klatch (j : Fin stackDepth) (a : Word) : (s.setStackEntry j a).klatch = s.klatch := rfl
@[simp] theorem State.setStackEntry_fault (j : Fin stackDepth) (a : Word) : (s.setStackEntry j a).fault = s.fault := rfl
@[simp] theorem State.setStackEntry_drawIndex (j : Fin stackDepth) (a : Word) : (s.setStackEntry j a).drawIndex = s.drawIndex := rfl

/-! ### `State.setSp` -/

@[simp] theorem State.setSp_v (n : Fin (stackDepth + 1)) : (s.setSp n).v = s.v := rfl
@[simp] theorem State.setSp_i (n : Fin (stackDepth + 1)) : (s.setSp n).i = s.i := rfl
@[simp] theorem State.setSp_pc (n : Fin (stackDepth + 1)) : (s.setSp n).pc = s.pc := rfl
@[simp] theorem State.setSp_stack (n : Fin (stackDepth + 1)) : (s.setSp n).stack = s.stack := rfl
@[simp] theorem State.setSp_sp (n : Fin (stackDepth + 1)) : (s.setSp n).sp = n := rfl
@[simp] theorem State.setSp_dt (n : Fin (stackDepth + 1)) : (s.setSp n).dt = s.dt := rfl
@[simp] theorem State.setSp_st (n : Fin (stackDepth + 1)) : (s.setSp n).st = s.st := rfl
@[simp] theorem State.setSp_mem (n : Fin (stackDepth + 1)) : (s.setSp n).mem = s.mem := rfl
@[simp] theorem State.setSp_disp (n : Fin (stackDepth + 1)) : (s.setSp n).disp = s.disp := rfl
@[simp] theorem State.setSp_key (n : Fin (stackDepth + 1)) : (s.setSp n).key = s.key := rfl
@[simp] theorem State.setSp_kwait (n : Fin (stackDepth + 1)) : (s.setSp n).kwait = s.kwait := rfl
@[simp] theorem State.setSp_klatch (n : Fin (stackDepth + 1)) : (s.setSp n).klatch = s.klatch := rfl
@[simp] theorem State.setSp_fault (n : Fin (stackDepth + 1)) : (s.setSp n).fault = s.fault := rfl
@[simp] theorem State.setSp_drawIndex (n : Fin (stackDepth + 1)) : (s.setSp n).drawIndex = s.drawIndex := rfl

/-! ### `State.setDt` -/

@[simp] theorem State.setDt_v (b : Byte) : (s.setDt b).v = s.v := rfl
@[simp] theorem State.setDt_i (b : Byte) : (s.setDt b).i = s.i := rfl
@[simp] theorem State.setDt_pc (b : Byte) : (s.setDt b).pc = s.pc := rfl
@[simp] theorem State.setDt_stack (b : Byte) : (s.setDt b).stack = s.stack := rfl
@[simp] theorem State.setDt_sp (b : Byte) : (s.setDt b).sp = s.sp := rfl
@[simp] theorem State.setDt_dt (b : Byte) : (s.setDt b).dt = b := rfl
@[simp] theorem State.setDt_st (b : Byte) : (s.setDt b).st = s.st := rfl
@[simp] theorem State.setDt_mem (b : Byte) : (s.setDt b).mem = s.mem := rfl
@[simp] theorem State.setDt_disp (b : Byte) : (s.setDt b).disp = s.disp := rfl
@[simp] theorem State.setDt_key (b : Byte) : (s.setDt b).key = s.key := rfl
@[simp] theorem State.setDt_kwait (b : Byte) : (s.setDt b).kwait = s.kwait := rfl
@[simp] theorem State.setDt_klatch (b : Byte) : (s.setDt b).klatch = s.klatch := rfl
@[simp] theorem State.setDt_fault (b : Byte) : (s.setDt b).fault = s.fault := rfl
@[simp] theorem State.setDt_drawIndex (b : Byte) : (s.setDt b).drawIndex = s.drawIndex := rfl

/-! ### `State.setSt` -/

@[simp] theorem State.setSt_v (b : Byte) : (s.setSt b).v = s.v := rfl
@[simp] theorem State.setSt_i (b : Byte) : (s.setSt b).i = s.i := rfl
@[simp] theorem State.setSt_pc (b : Byte) : (s.setSt b).pc = s.pc := rfl
@[simp] theorem State.setSt_stack (b : Byte) : (s.setSt b).stack = s.stack := rfl
@[simp] theorem State.setSt_sp (b : Byte) : (s.setSt b).sp = s.sp := rfl
@[simp] theorem State.setSt_dt (b : Byte) : (s.setSt b).dt = s.dt := rfl
@[simp] theorem State.setSt_st (b : Byte) : (s.setSt b).st = b := rfl
@[simp] theorem State.setSt_mem (b : Byte) : (s.setSt b).mem = s.mem := rfl
@[simp] theorem State.setSt_disp (b : Byte) : (s.setSt b).disp = s.disp := rfl
@[simp] theorem State.setSt_key (b : Byte) : (s.setSt b).key = s.key := rfl
@[simp] theorem State.setSt_kwait (b : Byte) : (s.setSt b).kwait = s.kwait := rfl
@[simp] theorem State.setSt_klatch (b : Byte) : (s.setSt b).klatch = s.klatch := rfl
@[simp] theorem State.setSt_fault (b : Byte) : (s.setSt b).fault = s.fault := rfl
@[simp] theorem State.setSt_drawIndex (b : Byte) : (s.setSt b).drawIndex = s.drawIndex := rfl

/-! ### `State.setMem` -/

@[simp] theorem State.setMem_v (m : Memory) : (s.setMem m).v = s.v := rfl
@[simp] theorem State.setMem_i (m : Memory) : (s.setMem m).i = s.i := rfl
@[simp] theorem State.setMem_pc (m : Memory) : (s.setMem m).pc = s.pc := rfl
@[simp] theorem State.setMem_stack (m : Memory) : (s.setMem m).stack = s.stack := rfl
@[simp] theorem State.setMem_sp (m : Memory) : (s.setMem m).sp = s.sp := rfl
@[simp] theorem State.setMem_dt (m : Memory) : (s.setMem m).dt = s.dt := rfl
@[simp] theorem State.setMem_st (m : Memory) : (s.setMem m).st = s.st := rfl
@[simp] theorem State.setMem_mem (m : Memory) : (s.setMem m).mem = m := rfl
@[simp] theorem State.setMem_disp (m : Memory) : (s.setMem m).disp = s.disp := rfl
@[simp] theorem State.setMem_key (m : Memory) : (s.setMem m).key = s.key := rfl
@[simp] theorem State.setMem_kwait (m : Memory) : (s.setMem m).kwait = s.kwait := rfl
@[simp] theorem State.setMem_klatch (m : Memory) : (s.setMem m).klatch = s.klatch := rfl
@[simp] theorem State.setMem_fault (m : Memory) : (s.setMem m).fault = s.fault := rfl
@[simp] theorem State.setMem_drawIndex (m : Memory) : (s.setMem m).drawIndex = s.drawIndex := rfl

/-! ### `State.setDisp` -/

@[simp] theorem State.setDisp_v (d : Grid displayW displayH) : (s.setDisp d).v = s.v := rfl
@[simp] theorem State.setDisp_i (d : Grid displayW displayH) : (s.setDisp d).i = s.i := rfl
@[simp] theorem State.setDisp_pc (d : Grid displayW displayH) : (s.setDisp d).pc = s.pc := rfl
@[simp] theorem State.setDisp_stack (d : Grid displayW displayH) : (s.setDisp d).stack = s.stack := rfl
@[simp] theorem State.setDisp_sp (d : Grid displayW displayH) : (s.setDisp d).sp = s.sp := rfl
@[simp] theorem State.setDisp_dt (d : Grid displayW displayH) : (s.setDisp d).dt = s.dt := rfl
@[simp] theorem State.setDisp_st (d : Grid displayW displayH) : (s.setDisp d).st = s.st := rfl
@[simp] theorem State.setDisp_mem (d : Grid displayW displayH) : (s.setDisp d).mem = s.mem := rfl
@[simp] theorem State.setDisp_disp (d : Grid displayW displayH) : (s.setDisp d).disp = d := rfl
@[simp] theorem State.setDisp_key (d : Grid displayW displayH) : (s.setDisp d).key = s.key := rfl
@[simp] theorem State.setDisp_kwait (d : Grid displayW displayH) : (s.setDisp d).kwait = s.kwait := rfl
@[simp] theorem State.setDisp_klatch (d : Grid displayW displayH) : (s.setDisp d).klatch = s.klatch := rfl
@[simp] theorem State.setDisp_fault (d : Grid displayW displayH) : (s.setDisp d).fault = s.fault := rfl
@[simp] theorem State.setDisp_drawIndex (d : Grid displayW displayH) : (s.setDisp d).drawIndex = s.drawIndex := rfl

/-! ### `State.setKey` -/

@[simp] theorem State.setKey_v (k : Key) (c : KeyState) : (s.setKey k c).v = s.v := rfl
@[simp] theorem State.setKey_i (k : Key) (c : KeyState) : (s.setKey k c).i = s.i := rfl
@[simp] theorem State.setKey_pc (k : Key) (c : KeyState) : (s.setKey k c).pc = s.pc := rfl
@[simp] theorem State.setKey_stack (k : Key) (c : KeyState) : (s.setKey k c).stack = s.stack := rfl
@[simp] theorem State.setKey_sp (k : Key) (c : KeyState) : (s.setKey k c).sp = s.sp := rfl
@[simp] theorem State.setKey_dt (k : Key) (c : KeyState) : (s.setKey k c).dt = s.dt := rfl
@[simp] theorem State.setKey_st (k : Key) (c : KeyState) : (s.setKey k c).st = s.st := rfl
@[simp] theorem State.setKey_mem (k : Key) (c : KeyState) : (s.setKey k c).mem = s.mem := rfl
@[simp] theorem State.setKey_disp (k : Key) (c : KeyState) : (s.setKey k c).disp = s.disp := rfl
@[simp] theorem State.setKey_key (k : Key) (c : KeyState) : (s.setKey k c).key = s.key.set k.val c := rfl
@[simp] theorem State.setKey_kwait (k : Key) (c : KeyState) : (s.setKey k c).kwait = s.kwait := rfl
@[simp] theorem State.setKey_klatch (k : Key) (c : KeyState) : (s.setKey k c).klatch = s.klatch := rfl
@[simp] theorem State.setKey_fault (k : Key) (c : KeyState) : (s.setKey k c).fault = s.fault := rfl
@[simp] theorem State.setKey_drawIndex (k : Key) (c : KeyState) : (s.setKey k c).drawIndex = s.drawIndex := rfl

/-! ### `State.setKwait` -/

@[simp] theorem State.setKwait_v (o : Option Reg) : (s.setKwait o).v = s.v := rfl
@[simp] theorem State.setKwait_i (o : Option Reg) : (s.setKwait o).i = s.i := rfl
@[simp] theorem State.setKwait_pc (o : Option Reg) : (s.setKwait o).pc = s.pc := rfl
@[simp] theorem State.setKwait_stack (o : Option Reg) : (s.setKwait o).stack = s.stack := rfl
@[simp] theorem State.setKwait_sp (o : Option Reg) : (s.setKwait o).sp = s.sp := rfl
@[simp] theorem State.setKwait_dt (o : Option Reg) : (s.setKwait o).dt = s.dt := rfl
@[simp] theorem State.setKwait_st (o : Option Reg) : (s.setKwait o).st = s.st := rfl
@[simp] theorem State.setKwait_mem (o : Option Reg) : (s.setKwait o).mem = s.mem := rfl
@[simp] theorem State.setKwait_disp (o : Option Reg) : (s.setKwait o).disp = s.disp := rfl
@[simp] theorem State.setKwait_key (o : Option Reg) : (s.setKwait o).key = s.key := rfl
@[simp] theorem State.setKwait_kwait (o : Option Reg) : (s.setKwait o).kwait = o := rfl
@[simp] theorem State.setKwait_klatch (o : Option Reg) : (s.setKwait o).klatch = s.klatch := rfl
@[simp] theorem State.setKwait_fault (o : Option Reg) : (s.setKwait o).fault = s.fault := rfl
@[simp] theorem State.setKwait_drawIndex (o : Option Reg) : (s.setKwait o).drawIndex = s.drawIndex := rfl

/-! ### `State.setKlatch` -/

@[simp] theorem State.setKlatch_v (o : Option Key) : (s.setKlatch o).v = s.v := rfl
@[simp] theorem State.setKlatch_i (o : Option Key) : (s.setKlatch o).i = s.i := rfl
@[simp] theorem State.setKlatch_pc (o : Option Key) : (s.setKlatch o).pc = s.pc := rfl
@[simp] theorem State.setKlatch_stack (o : Option Key) : (s.setKlatch o).stack = s.stack := rfl
@[simp] theorem State.setKlatch_sp (o : Option Key) : (s.setKlatch o).sp = s.sp := rfl
@[simp] theorem State.setKlatch_dt (o : Option Key) : (s.setKlatch o).dt = s.dt := rfl
@[simp] theorem State.setKlatch_st (o : Option Key) : (s.setKlatch o).st = s.st := rfl
@[simp] theorem State.setKlatch_mem (o : Option Key) : (s.setKlatch o).mem = s.mem := rfl
@[simp] theorem State.setKlatch_disp (o : Option Key) : (s.setKlatch o).disp = s.disp := rfl
@[simp] theorem State.setKlatch_key (o : Option Key) : (s.setKlatch o).key = s.key := rfl
@[simp] theorem State.setKlatch_kwait (o : Option Key) : (s.setKlatch o).kwait = s.kwait := rfl
@[simp] theorem State.setKlatch_klatch (o : Option Key) : (s.setKlatch o).klatch = o := rfl
@[simp] theorem State.setKlatch_fault (o : Option Key) : (s.setKlatch o).fault = s.fault := rfl
@[simp] theorem State.setKlatch_drawIndex (o : Option Key) : (s.setKlatch o).drawIndex = s.drawIndex := rfl

/-! ### `State.setFault` -/

@[simp] theorem State.setFault_v (o : Option FaultRecord) : (s.setFault o).v = s.v := rfl
@[simp] theorem State.setFault_i (o : Option FaultRecord) : (s.setFault o).i = s.i := rfl
@[simp] theorem State.setFault_pc (o : Option FaultRecord) : (s.setFault o).pc = s.pc := rfl
@[simp] theorem State.setFault_stack (o : Option FaultRecord) : (s.setFault o).stack = s.stack := rfl
@[simp] theorem State.setFault_sp (o : Option FaultRecord) : (s.setFault o).sp = s.sp := rfl
@[simp] theorem State.setFault_dt (o : Option FaultRecord) : (s.setFault o).dt = s.dt := rfl
@[simp] theorem State.setFault_st (o : Option FaultRecord) : (s.setFault o).st = s.st := rfl
@[simp] theorem State.setFault_mem (o : Option FaultRecord) : (s.setFault o).mem = s.mem := rfl
@[simp] theorem State.setFault_disp (o : Option FaultRecord) : (s.setFault o).disp = s.disp := rfl
@[simp] theorem State.setFault_key (o : Option FaultRecord) : (s.setFault o).key = s.key := rfl
@[simp] theorem State.setFault_kwait (o : Option FaultRecord) : (s.setFault o).kwait = s.kwait := rfl
@[simp] theorem State.setFault_klatch (o : Option FaultRecord) : (s.setFault o).klatch = s.klatch := rfl
@[simp] theorem State.setFault_fault (o : Option FaultRecord) : (s.setFault o).fault = o := rfl
@[simp] theorem State.setFault_drawIndex (o : Option FaultRecord) : (s.setFault o).drawIndex = s.drawIndex := rfl

/-! ### `State.nextDraw` -/

@[simp] theorem State.nextDraw_v : s.nextDraw.v = s.v := rfl
@[simp] theorem State.nextDraw_i : s.nextDraw.i = s.i := rfl
@[simp] theorem State.nextDraw_pc : s.nextDraw.pc = s.pc := rfl
@[simp] theorem State.nextDraw_stack : s.nextDraw.stack = s.stack := rfl
@[simp] theorem State.nextDraw_sp : s.nextDraw.sp = s.sp := rfl
@[simp] theorem State.nextDraw_dt : s.nextDraw.dt = s.dt := rfl
@[simp] theorem State.nextDraw_st : s.nextDraw.st = s.st := rfl
@[simp] theorem State.nextDraw_mem : s.nextDraw.mem = s.mem := rfl
@[simp] theorem State.nextDraw_disp : s.nextDraw.disp = s.disp := rfl
@[simp] theorem State.nextDraw_key : s.nextDraw.key = s.key := rfl
@[simp] theorem State.nextDraw_kwait : s.nextDraw.kwait = s.kwait := rfl
@[simp] theorem State.nextDraw_klatch : s.nextDraw.klatch = s.klatch := rfl
@[simp] theorem State.nextDraw_fault : s.nextDraw.fault = s.fault := rfl
@[simp] theorem State.nextDraw_drawIndex : s.nextDraw.drawIndex = s.drawIndex + 1 := rfl

/-! ### Reads after updates -/

@[simp] theorem State.readV_setV (x y : Reg) (b : Byte) :
    (s.setV x b).readV y = if y = x then b else s.readV y := by
  simp only [State.readV, State.setV, Vector.getElem_set, ← Fin.ext_iff, eq_comm]

@[simp] theorem State.readKey_setKey (k l : Key) (c : KeyState) :
    (s.setKey k c).readKey l = if l = k then c else s.readKey l := by
  simp only [State.readKey, State.setKey, Vector.getElem_set, ← Fin.ext_iff, eq_comm]

@[simp] theorem State.readStack_setStackEntry (j l : Fin stackDepth) (a : Word) :
    (s.setStackEntry j a).readStack l = if l = j then a else s.readStack l := by
  simp only [State.readStack, State.setStackEntry, Vector.getElem_set, ← Fin.ext_iff, eq_comm]

@[simp] theorem State.readV_setVs (v : Vector Byte numV) (y : Reg) : (s.setVs v).readV y = v[y.val] := rfl
@[simp] theorem State.readByte_setMem (m : Memory) (addr : Nat) : (s.setMem m).readByte addr = m.read addr := rfl
@[simp] theorem State.readV_setI (a : Word) (y : Reg) : (s.setI a).readV y = s.readV y := rfl
@[simp] theorem State.readV_setPc (a : Word) (y : Reg) : (s.setPc a).readV y = s.readV y := rfl
@[simp] theorem State.readV_setStackEntry (j : Fin stackDepth) (a : Word) (y : Reg) : (s.setStackEntry j a).readV y = s.readV y := rfl
@[simp] theorem State.readV_setSp (n : Fin (stackDepth + 1)) (y : Reg) : (s.setSp n).readV y = s.readV y := rfl
@[simp] theorem State.readV_setDt (b : Byte) (y : Reg) : (s.setDt b).readV y = s.readV y := rfl
@[simp] theorem State.readV_setSt (b : Byte) (y : Reg) : (s.setSt b).readV y = s.readV y := rfl
@[simp] theorem State.readV_setMem (m : Memory) (y : Reg) : (s.setMem m).readV y = s.readV y := rfl
@[simp] theorem State.readV_setDisp (d : Grid displayW displayH) (y : Reg) : (s.setDisp d).readV y = s.readV y := rfl
@[simp] theorem State.readV_setKey (k : Key) (c : KeyState) (y : Reg) : (s.setKey k c).readV y = s.readV y := rfl
@[simp] theorem State.readV_setKwait (o : Option Reg) (y : Reg) : (s.setKwait o).readV y = s.readV y := rfl
@[simp] theorem State.readV_setKlatch (o : Option Key) (y : Reg) : (s.setKlatch o).readV y = s.readV y := rfl
@[simp] theorem State.readV_setFault (o : Option FaultRecord) (y : Reg) : (s.setFault o).readV y = s.readV y := rfl
@[simp] theorem State.readV_nextDraw (y : Reg) : s.nextDraw.readV y = s.readV y := rfl
@[simp] theorem State.readByte_setV (x : Reg) (b : Byte) (addr : Nat) : (s.setV x b).readByte addr = s.readByte addr := rfl
@[simp] theorem State.readByte_setVs (v : Vector Byte numV) (addr : Nat) : (s.setVs v).readByte addr = s.readByte addr := rfl
@[simp] theorem State.readByte_setI (a : Word) (addr : Nat) : (s.setI a).readByte addr = s.readByte addr := rfl
@[simp] theorem State.readByte_setPc (a : Word) (addr : Nat) : (s.setPc a).readByte addr = s.readByte addr := rfl
@[simp] theorem State.readByte_setStackEntry (j : Fin stackDepth) (a : Word) (addr : Nat) : (s.setStackEntry j a).readByte addr = s.readByte addr := rfl
@[simp] theorem State.readByte_setSp (n : Fin (stackDepth + 1)) (addr : Nat) : (s.setSp n).readByte addr = s.readByte addr := rfl
@[simp] theorem State.readByte_setDt (b : Byte) (addr : Nat) : (s.setDt b).readByte addr = s.readByte addr := rfl
@[simp] theorem State.readByte_setSt (b : Byte) (addr : Nat) : (s.setSt b).readByte addr = s.readByte addr := rfl
@[simp] theorem State.readByte_setDisp (d : Grid displayW displayH) (addr : Nat) : (s.setDisp d).readByte addr = s.readByte addr := rfl
@[simp] theorem State.readByte_setKey (k : Key) (c : KeyState) (addr : Nat) : (s.setKey k c).readByte addr = s.readByte addr := rfl
@[simp] theorem State.readByte_setKwait (o : Option Reg) (addr : Nat) : (s.setKwait o).readByte addr = s.readByte addr := rfl
@[simp] theorem State.readByte_setKlatch (o : Option Key) (addr : Nat) : (s.setKlatch o).readByte addr = s.readByte addr := rfl
@[simp] theorem State.readByte_setFault (o : Option FaultRecord) (addr : Nat) : (s.setFault o).readByte addr = s.readByte addr := rfl
@[simp] theorem State.readByte_nextDraw (addr : Nat) : s.nextDraw.readByte addr = s.readByte addr := rfl
@[simp] theorem State.readKey_setV (x : Reg) (b : Byte) (l : Key) : (s.setV x b).readKey l = s.readKey l := rfl
@[simp] theorem State.readKey_setVs (v : Vector Byte numV) (l : Key) : (s.setVs v).readKey l = s.readKey l := rfl
@[simp] theorem State.readKey_setI (a : Word) (l : Key) : (s.setI a).readKey l = s.readKey l := rfl
@[simp] theorem State.readKey_setPc (a : Word) (l : Key) : (s.setPc a).readKey l = s.readKey l := rfl
@[simp] theorem State.readKey_setStackEntry (j : Fin stackDepth) (a : Word) (l : Key) : (s.setStackEntry j a).readKey l = s.readKey l := rfl
@[simp] theorem State.readKey_setSp (n : Fin (stackDepth + 1)) (l : Key) : (s.setSp n).readKey l = s.readKey l := rfl
@[simp] theorem State.readKey_setDt (b : Byte) (l : Key) : (s.setDt b).readKey l = s.readKey l := rfl
@[simp] theorem State.readKey_setSt (b : Byte) (l : Key) : (s.setSt b).readKey l = s.readKey l := rfl
@[simp] theorem State.readKey_setMem (m : Memory) (l : Key) : (s.setMem m).readKey l = s.readKey l := rfl
@[simp] theorem State.readKey_setDisp (d : Grid displayW displayH) (l : Key) : (s.setDisp d).readKey l = s.readKey l := rfl
@[simp] theorem State.readKey_setKwait (o : Option Reg) (l : Key) : (s.setKwait o).readKey l = s.readKey l := rfl
@[simp] theorem State.readKey_setKlatch (o : Option Key) (l : Key) : (s.setKlatch o).readKey l = s.readKey l := rfl
@[simp] theorem State.readKey_setFault (o : Option FaultRecord) (l : Key) : (s.setFault o).readKey l = s.readKey l := rfl
@[simp] theorem State.readKey_nextDraw (l : Key) : s.nextDraw.readKey l = s.readKey l := rfl
@[simp] theorem State.readStack_setV (x : Reg) (b : Byte) (l : Fin stackDepth) : (s.setV x b).readStack l = s.readStack l := rfl
@[simp] theorem State.readStack_setVs (v : Vector Byte numV) (l : Fin stackDepth) : (s.setVs v).readStack l = s.readStack l := rfl
@[simp] theorem State.readStack_setI (a : Word) (l : Fin stackDepth) : (s.setI a).readStack l = s.readStack l := rfl
@[simp] theorem State.readStack_setPc (a : Word) (l : Fin stackDepth) : (s.setPc a).readStack l = s.readStack l := rfl
@[simp] theorem State.readStack_setSp (n : Fin (stackDepth + 1)) (l : Fin stackDepth) : (s.setSp n).readStack l = s.readStack l := rfl
@[simp] theorem State.readStack_setDt (b : Byte) (l : Fin stackDepth) : (s.setDt b).readStack l = s.readStack l := rfl
@[simp] theorem State.readStack_setSt (b : Byte) (l : Fin stackDepth) : (s.setSt b).readStack l = s.readStack l := rfl
@[simp] theorem State.readStack_setMem (m : Memory) (l : Fin stackDepth) : (s.setMem m).readStack l = s.readStack l := rfl
@[simp] theorem State.readStack_setDisp (d : Grid displayW displayH) (l : Fin stackDepth) : (s.setDisp d).readStack l = s.readStack l := rfl
@[simp] theorem State.readStack_setKey (k : Key) (c : KeyState) (l : Fin stackDepth) : (s.setKey k c).readStack l = s.readStack l := rfl
@[simp] theorem State.readStack_setKwait (o : Option Reg) (l : Fin stackDepth) : (s.setKwait o).readStack l = s.readStack l := rfl
@[simp] theorem State.readStack_setKlatch (o : Option Key) (l : Fin stackDepth) : (s.setKlatch o).readStack l = s.readStack l := rfl
@[simp] theorem State.readStack_setFault (o : Option FaultRecord) (l : Fin stackDepth) : (s.setFault o).readStack l = s.readStack l := rfl
@[simp] theorem State.readStack_nextDraw (l : Fin stackDepth) : s.nextDraw.readStack l = s.readStack l := rfl

/-! ### `advancePc` and `instrAddr` -/

theorem advancePc_eq : advancePc s = s.setPc (s.pc + 2#16) := rfl
@[simp] theorem advancePc_pc : (advancePc s).pc = s.pc + 2#16 := rfl
@[simp] theorem advancePc_v : (advancePc s).v = s.v := rfl
@[simp] theorem advancePc_i : (advancePc s).i = s.i := rfl
@[simp] theorem advancePc_stack : (advancePc s).stack = s.stack := rfl
@[simp] theorem advancePc_sp : (advancePc s).sp = s.sp := rfl
@[simp] theorem advancePc_dt : (advancePc s).dt = s.dt := rfl
@[simp] theorem advancePc_st : (advancePc s).st = s.st := rfl
@[simp] theorem advancePc_mem : (advancePc s).mem = s.mem := rfl
@[simp] theorem advancePc_disp : (advancePc s).disp = s.disp := rfl
@[simp] theorem advancePc_key : (advancePc s).key = s.key := rfl
@[simp] theorem advancePc_kwait : (advancePc s).kwait = s.kwait := rfl
@[simp] theorem advancePc_klatch : (advancePc s).klatch = s.klatch := rfl
@[simp] theorem advancePc_fault : (advancePc s).fault = s.fault := rfl
@[simp] theorem advancePc_drawIndex : (advancePc s).drawIndex = s.drawIndex := rfl
@[simp] theorem advancePc_readV (y : Reg) : (advancePc s).readV y = s.readV y := rfl
@[simp] theorem advancePc_readByte (addr : Nat) : (advancePc s).readByte addr = s.readByte addr := rfl
@[simp] theorem advancePc_readKey (l : Key) : (advancePc s).readKey l = s.readKey l := rfl
@[simp] theorem advancePc_readStack (l : Fin stackDepth) : (advancePc s).readStack l = s.readStack l := rfl

/-- The instruction's address, seen from its pseudocode, is the PC the cycle started with (R102). -/
@[simp] theorem instrAddr_advancePc : instrAddr (advancePc s) = s.pc := by
  simp [instrAddr]

/-- Putting PC back to A undoes the cycle's advance (R105, R235). -/
@[simp] theorem setPc_advancePc : (advancePc s).setPc s.pc = s := rfl

end Sys2Proof.Machine
end

