-- ==== Sys2Proof/Laws/Display.lean ====
section
/-! SUPPORT. The grid of pixels and one pass of the sprite renderer's loops (40_display.md R125). -/

namespace Sys2Proof.Machine

open Sys2Proof Sys2Proof.Config

variable {w h : Nat}

/-- A toggle turns its own pixel over and leaves every other one. -/
@[simp] theorem getPixel_togglePixel (d : Grid w h) (X X' : Fin w) (Y Y' : Fin h) :
    getPixel (togglePixel d X Y) X' Y' = if X' = X ∧ Y' = Y then !getPixel d X Y else getPixel d X' Y' := by
  unfold getPixel togglePixel
  by_cases hy : Y' = Y
  · subst hy
    by_cases hx : X' = X
    · subst hx; simp [getPixel]
    · have hx' : X.val ≠ X'.val := fun hc => hx (Fin.ext hc.symm)
      simp [hx, hx']
  · have hy' : Y.val ≠ Y'.val := fun hc => hy (Fin.ext hc.symm)
    simp [hy, hy']

/-- Every pixel of the blank grid is off. -/
@[simp] theorem getPixel_blankGrid (X : Fin w) (Y : Fin h) : getPixel (blankGrid w h) X Y = false := by
  simp [getPixel, blankGrid]

/-- Grids with the same pixels are the same grid. -/
theorem grid_ext {d e : Grid w h} (heq : ∀ (X : Fin w) (Y : Fin h), getPixel d X Y = getPixel e X Y) : d = e := by
  refine Vector.ext fun j hj => Vector.ext fun k hk => ?_
  exact heq ⟨k, hk⟩ ⟨j, hj⟩

variable [NeZero w] [NeZero h]

/-- One pass of the inner loop: a 0 bit changes nothing; a 1 bit toggles the wrapped pixel and collides if it was on. -/
theorem drawPixel_cases (x0 y0 r : Nat) (row : Byte) (acc : Grid w h × Bool) (c : Nat) :
    (spritePixel row c = false ∧ drawPixel x0 y0 r row acc c = acc) ∨
    (spritePixel row c = true ∧ drawPixel x0 y0 r row acc c =
      (togglePixel acc.1 (Fin.ofNat w (x0 + c)) (Fin.ofNat h (y0 + r)),
        acc.2 || getPixel acc.1 (Fin.ofNat w (x0 + c)) (Fin.ofNat h (y0 + r)))) := by
  unfold drawPixel
  cases hs : spritePixel row c
  · exact .inl ⟨rfl, rfl⟩
  · exact .inr ⟨rfl, rfl⟩

/-- The inner loop, written out: columns 0 to 7 in order. -/
theorem drawRow_eq (x0 y0 r : Nat) (row : Byte) (acc : Grid w h × Bool) :
    drawRow x0 y0 r row acc = [0, 1, 2, 3, 4, 5, 6, 7].foldl (drawPixel x0 y0 r row) acc := rfl

@[simp] theorem drawRows_nil (x0 y0 r : Nat) (acc : Grid w h × Bool) : drawRows x0 y0 r [] acc = acc := rfl

@[simp] theorem drawRows_cons (x0 y0 r : Nat) (row : Byte) (rest : List Byte) (acc : Grid w h × Bool) :
    drawRows x0 y0 r (row :: rest) acc = drawRows x0 y0 (r + 1) rest (drawRow x0 y0 r row acc) := rfl

/-- An empty sprite draws nothing and does not collide (R128). -/
@[simp] theorem blit_nil (vx vy : Nat) (d : Grid w h) : blit vx vy [] d = (d, false) := rfl

/-- A Draw that has read its sprite writes DISP and VF alone. -/
theorem drawSprite_eq (x y : Reg) (s : State) (sprite : List Byte) :
    drawSprite x y s sprite =
      (s.setDisp (blit (s.readV x).toNat (s.readV y).toNat sprite s.disp).1).setV flagReg
        (flagByte (blit (s.readV x).toNat (s.readV y).toNat sprite s.disp).2) := rfl

end Sys2Proof.Machine
end

