-- ==== Sys2Proof/Laws/Memory.lean ====
section
/-! SUPPORT. Memory: read after write, the canonical form, and what MemRead and MemWrite (00_scope.md R11) answer. -/

namespace Sys2Proof.Machine

open Sys2Proof Sys2Proof.Config

/-! ### One byte -/

theorem Memory.read_filter_self (m : Memory) (a : Nat) :
    Memory.read (m.filter (fun c => c.1 != a)) a = unlistedByte a := by
  induction m with
  | nil => rfl
  | cons c rest ih =>
    by_cases h : c.1 = a
    · simpa [List.filter_cons, h] using ih
    · simpa [List.filter_cons, h, Memory.read] using ih

theorem Memory.read_filter_of_ne (m : Memory) {a c : Nat} (hc : c ≠ a) :
    Memory.read (m.filter (fun e => e.1 != a)) c = m.read c := by
  induction m with
  | nil => rfl
  | cons e rest ih =>
    obtain ⟨k, b⟩ := e
    by_cases h : k = a
    · have hk : k ≠ c := fun hkc => hc (by rw [← hkc, h])
      simpa [List.filter_cons, h, Memory.read, h ▸ hk] using ih
    · simp only [List.filter_cons, bne_iff_ne, ne_eq, h, not_false_eq_true, if_true, Memory.read, ih]

theorem Memory.read_insert_of_ne (m : Memory) {a c : Nat} (b : Byte) (hc : c ≠ a) :
    Memory.read (Memory.insert a b m) c = m.read c := by
  induction m with
  | nil => simp [Memory.insert, Memory.read, Ne.symm hc]
  | cons e rest ih =>
    by_cases h : a < e.1
    · simp [Memory.insert, h, Memory.read, Ne.symm hc]
    · simp [Memory.insert, h, Memory.read, ih]

theorem Memory.read_insert_self (m : Memory) (a : Nat) (b : Byte) (hm : ∀ c ∈ m, c.1 ≠ a) :
    Memory.read (Memory.insert a b m) a = b := by
  induction m with
  | nil => simp [Memory.insert, Memory.read]
  | cons e rest ih =>
    have he : e.1 ≠ a := hm e (by simp)
    have ih := ih (fun c hc => hm c (by simp [hc]))
    by_cases h : a < e.1
    · simp [Memory.insert, h, Memory.read]
    · simp [Memory.insert, h, Memory.read, he, ih]

/-- Read after write, at the same address and at every other one, in any memory. -/
@[simp] theorem Memory.read_write (m : Memory) (a c : Nat) (b : Byte) :
    (m.write a b).read c = if c = a then b else m.read c := by
  unfold Memory.write
  by_cases hc : c = a
  · subst hc
    by_cases hb : b = unlistedByte c
    · simp [hb, Memory.read_filter_self]
    · have hne : ∀ e ∈ m.filter (fun e => e.1 != c), e.1 ≠ c := by
        intro e he; simpa using (List.mem_filter.mp he).2
      simp [hb, Memory.read_insert_self _ _ _ hne]
  · by_cases hb : b = unlistedByte a
    · simp [hb, hc, Memory.read_filter_of_ne]
    · simp [hb, hc, Memory.read_filter_of_ne, Memory.read_insert_of_ne]

/-! ### The canonical form -/

theorem Memory.mem_insert {a : Nat} {b : Byte} {m : Memory} {c : Host.Cell} :
    c ∈ Memory.insert a b m ↔ c = (a, b) ∨ c ∈ m := by
  induction m with
  | nil => simp [Memory.insert]
  | cons e rest ih =>
    by_cases h : a < e.1
    · simp [Memory.insert, h]
    · simp [Memory.insert, h, ih, or_left_comm]

theorem Memory.insert_rising {a : Nat} {b : Byte} {m : Memory} (hm : m.Pairwise (fun c d => c.1 < d.1))
    (ha : ∀ c ∈ m, c.1 ≠ a) : (Memory.insert a b m).Pairwise (fun c d => c.1 < d.1) := by
  induction m with
  | nil => simp [Memory.insert]
  | cons e rest ih =>
    have ⟨he, hrest⟩ := List.pairwise_cons.mp hm
    by_cases h : a < e.1
    · simp only [Memory.insert, h, if_true]
      refine List.pairwise_cons.mpr ⟨?_, hm⟩
      intro c hc
      rcases List.mem_cons.mp hc with rfl | hc
      · exact h
      · exact Nat.lt_trans h (he c hc)
    · simp only [Memory.insert, h, if_false]
      refine List.pairwise_cons.mpr ⟨?_, ih hrest (fun c hc => ha c (by simp [hc]))⟩
      intro c hc
      rcases Memory.mem_insert.mp hc with rfl | hc
      · have := ha e (by simp)
        show e.1 < a
        omega
      · exact he c hc

/-- A write inside M keeps the canonical form. -/
theorem Memory.write_wf {m : Memory} {a : Nat} (b : Byte) (hm : m.wf) (ha : a < memSize) : (m.write a b).wf := by
  obtain ⟨hr, he⟩ := hm
  have hr' : (m.filter (fun c => c.1 != a)).Pairwise (fun c d => c.1 < d.1) := hr.filter _
  have he' : ∀ c ∈ m.filter (fun c => c.1 != a), c.1 < memSize ∧ c.2 ≠ unlistedByte c.1 :=
    fun c hc => he c (List.mem_filter.mp hc).1
  have hne : ∀ c ∈ m.filter (fun c => c.1 != a), c.1 ≠ a := by
    intro c hc; simpa using (List.mem_filter.mp hc).2
  unfold Memory.write
  by_cases hb : b = unlistedByte a
  · simp only [hb, if_true]; exact ⟨hr', he'⟩
  · simp only [hb, if_false]
    refine ⟨Memory.insert_rising hr' hne, fun c hc => ?_⟩
    rcases Memory.mem_insert.mp hc with rfl | hc
    · exact ⟨ha, hb⟩
    · exact he' c hc

/-- Reset memory is canonical. -/
theorem Memory.reset_wf : Memory.wf State.reset.mem := by simp [State.reset, Memory.wf]

/-! ### Several bytes -/

/-- What every address reads after a sequence of bytes is written. -/
theorem Memory.read_writeBytes (m : Memory) (a : Nat) (bs : List Byte) (c : Nat) :
    (m.writeBytes a bs).read c = if a ≤ c ∧ c < a + bs.length then bs.getD (c - a) 0#8 else m.read c := by
  induction bs generalizing m a with
  | nil => simp [Memory.writeBytes]
  | cons b rest ih =>
    simp only [Memory.writeBytes, ih, Memory.read_write, List.length_cons]
    by_cases h1 : c = a
    · subst h1; simp
    · by_cases h2 : a + 1 ≤ c ∧ c < a + 1 + rest.length
      · have h3 : a ≤ c ∧ c < a + (rest.length + 1) := by omega
        have h4 : c - a = (c - (a + 1)) + 1 := by omega
        rw [if_pos h2, if_pos h3, h4]
        simp
      · have h3 : ¬ (a ≤ c ∧ c < a + (rest.length + 1)) := by omega
        rw [if_neg h2, if_neg h3, if_neg h1]

/-- Writing bytes inside M keeps the canonical form. -/
theorem Memory.writeBytes_wf {m : Memory} {a : Nat} {bs : List Byte} (hm : m.wf) (h : a + bs.length ≤ memSize) :
    (m.writeBytes a bs).wf := by
  induction bs generalizing m a with
  | nil => exact hm
  | cons b rest ih =>
    simp only [List.length_cons] at h
    exact ih (Memory.write_wf b hm (by omega)) (by omega)

@[simp] theorem Memory.length_readBytes (m : Memory) (a n : Nat) : (m.readBytes a n).length = n := by
  simp [Memory.readBytes]

@[simp] theorem Memory.getElem_readBytes (m : Memory) (a n j : Nat) (h : j < (m.readBytes a n).length) :
    (m.readBytes a n)[j] = m.read (a + j) := by
  simp [Memory.readBytes]

/-! ### MemRead and MemWrite (R11) -/

theorem accessInRange_iff (a n : Nat) : accessInRange a n = true ↔ n = 0 ∨ a + n ≤ memSize := by
  simp [accessInRange]

/-- All that MemRead can answer. -/
theorem memRead_cases (m : Memory) (a n : Nat) :
    ((n = 0 ∨ a + n ≤ memSize) ∧ memRead m a n = some (m.readBytes a n)) ∨
    (¬ (n = 0 ∨ a + n ≤ memSize) ∧ memRead m a n = none) := by
  unfold memRead
  by_cases h : n = 0 ∨ a + n ≤ memSize
  · exact .inl ⟨h, by rw [if_pos ((accessInRange_iff a n).mpr h)]⟩
  · exact .inr ⟨h, by rw [if_neg (fun hc => h ((accessInRange_iff a n).mp hc))]⟩

/-- All that MemWrite can answer. -/
theorem memWrite_cases (m : Memory) (a : Nat) (bs : List Byte) :
    ((bs.length = 0 ∨ a + bs.length ≤ memSize) ∧ memWrite m a bs = some (m.writeBytes a bs)) ∨
    (¬ (bs.length = 0 ∨ a + bs.length ≤ memSize) ∧ memWrite m a bs = none) := by
  unfold memWrite
  by_cases h : bs.length = 0 ∨ a + bs.length ≤ memSize
  · exact .inl ⟨h, by rw [if_pos ((accessInRange_iff a bs.length).mpr h)]⟩
  · exact .inr ⟨h, by rw [if_neg (fun hc => h ((accessInRange_iff a bs.length).mp hc))]⟩

/-- A MemWrite that answers keeps the canonical form. -/
theorem memWrite_wf {m m' : Memory} {a : Nat} {bs : List Byte} (hm : m.wf) (h : memWrite m a bs = some m') : m'.wf := by
  rcases memWrite_cases m a bs with ⟨hr, heq⟩ | ⟨-, heq⟩
  · rw [heq] at h
    obtain rfl := Option.some.inj h
    rcases hr with h0 | hr
    · obtain rfl := List.length_eq_zero_iff.mp h0
      exact hm
    · exact Memory.writeBytes_wf hm hr
  · rw [heq] at h; cases h

/-- The fetch of a word (R101): its range check and its bytes. -/
theorem fetchWord_cases (s : State) :
    (s.pc.toNat + 2 ≤ memSize ∧ fetchWord s = some (opcodeOfBytes (s.readByte s.pc.toNat) (s.readByte (s.pc.toNat + 1)))) ∨
    (memSize < s.pc.toNat + 2 ∧ fetchWord s = none) := by
  unfold fetchWord
  by_cases h : s.pc.toNat + 2 ≤ memSize
  · exact .inl ⟨h, by rw [if_pos h]; rfl⟩
  · exact .inr ⟨by omega, by rw [if_neg h]⟩

end Sys2Proof.Machine
end

