-- ==== Sys2Proof/Laws/Ops.lean ====
section
/-! SUPPORT. One lemma per shared operation of Machine/Ops.lean, Machine/Operands.lean and Machine/Flags.lean: everything
the operation can do. -/

namespace Sys2Proof.Machine

open Sys2Proof Sys2Proof.Config

/-! ### The call stack (R27) -/

/-- All that a push can answer. -/
theorem pushPc_cases (s : State) :
    (∃ h : s.sp.val < stackDepth, pushPc s =
      some ((s.setStackEntry ⟨s.sp.val, h⟩ s.pc).setSp ⟨s.sp.val + 1, Nat.succ_lt_succ h⟩)) ∨
    (s.sp.val = stackDepth ∧ pushPc s = none) := by
  unfold pushPc
  by_cases h : s.sp.val < stackDepth
  · exact .inl ⟨h, dif_pos h⟩
  · exact .inr ⟨Nat.le_antisymm (Nat.lt_succ_iff.mp s.sp.isLt) (Nat.le_of_not_lt h), dif_neg h⟩

/-- All that a pop can answer. -/
theorem popPc_cases (s : State) :
    (∃ h : 0 < s.sp.val, popPc s = some ((s.setSp ⟨s.sp.val - 1, Nat.lt_succ_of_lt (popIndex_lt s h)⟩).setPc
      (s.readStack ⟨s.sp.val - 1, popIndex_lt s h⟩))) ∨
    (s.sp.val = 0 ∧ popPc s = none) := by
  unfold popPc
  by_cases h : 0 < s.sp.val
  · exact .inl ⟨h, dif_pos h⟩
  · exact .inr ⟨by omega, dif_neg h⟩

/-! ### Block register transfer (R22) -/

@[simp] theorem length_registersUpTo (s : State) (x : Reg) : (registersUpTo s x).length = x.val + 1 := by
  simp [registersUpTo]

@[simp] theorem getElem_registersUpTo (s : State) (x : Reg) (j : Nat) (h : j < (registersUpTo s x).length) :
    (registersUpTo s x)[j] = s.readV ⟨j, by have := x.isLt; simp at h; omega⟩ := by
  simp [registersUpTo, State.readV]

/-- What every register holds after bytes are written to V[j], V[j+1], ... -/
theorem getElem_writeRegisters (v : Vector Byte numV) (j : Nat) (bs : List Byte) (y : Reg) :
    (writeRegisters v j bs)[y.val] = if j ≤ y.val ∧ y.val < j + bs.length then bs.getD (y.val - j) 0#8 else v[y.val] := by
  induction bs generalizing v j with
  | nil => simp [writeRegisters]
  | cons b rest ih =>
    simp only [writeRegisters, ih, List.length_cons, Vector.getElem_setIfInBounds]
    by_cases h1 : j = y.val
    · subst h1; simp
    · by_cases h2 : j + 1 ≤ y.val ∧ y.val < j + 1 + rest.length
      · have h3 : j ≤ y.val ∧ y.val < j + (rest.length + 1) := by omega
        have h4 : y.val - j = (y.val - (j + 1)) + 1 := by omega
        rw [if_pos h2, if_pos h3, h4]
        simp
      · have h3 : ¬ (j ≤ y.val ∧ y.val < j + (rest.length + 1)) := by omega
        rw [if_neg h2, if_neg h3, if_neg h1]

/-- LDST_INCREMENTS_I moves I and nothing else (R206, R207). -/
theorem advanceI_eq (increments : Bool) (x : Reg) (s : State) :
    advanceI increments x s = s.setI (if increments then s.i + BitVec.ofNat 16 (x.val + 1) else s.i) := by
  cases increments <;> rfl

/-! ### The error channel (R105, R264) -/

/-- Recording an error writes FAULT alone. -/
theorem recordFault_eq (e : Chip8Error) (pc word : Word) (a0 : Nat) (s : State) :
    recordFault e pc word a0 s = s.setFault (some ⟨e, pc, word, BitVec.ofNat 17 a0⟩) := rfl

/-- Raised from the state the cycle dispatched on, an error gives back the state before the Step, but for FAULT. -/
@[simp] theorem raise_advancePc (e : Chip8Error) (i : Instr) (a0 : Nat) (s : State) :
    raise e i a0 (advancePc s) = recordFault e s.pc (encode i) a0 s := by
  simp [raise]

/-- An instruction with a check of its own has its effect or raises, and does nothing else. -/
theorem completeOrRaise_cases {α : Type} (o : Option α) (e : Chip8Error) (i : Instr) (a0 : Nat) (s : State)
    (k : α → State) :
    (∃ a, o = some a ∧ completeOrRaise o e i a0 s k = .next (k a)) ∨
    (o = none ∧ completeOrRaise o e i a0 s k = .next (raise e i a0 s)) := by
  cases o with
  | some a => exact .inl ⟨a, rfl, rfl⟩
  | none => exact .inr ⟨rfl, rfl⟩

/-! ### The key wait (R100) -/

/-- All that a poll can do. -/
theorem keyWaitPoll_cases (x : Reg) (s : State) :
    (s.klatch = none ∧ keyWaitPoll x s = s) ∨
    (∃ k, s.klatch = some k ∧
      keyWaitPoll x s = advancePc (((s.setV x (BitVec.ofNat 8 k.val)).setKwait none).setKlatch none)) := by
  unfold keyWaitPoll
  cases h : s.klatch with
  | none => exact .inl ⟨rfl, rfl⟩
  | some k => exact .inr ⟨k, rfl, rfl⟩

/-! ### Operands -/

/-- `Nibble(b)` is the byte modulo 16 (R13). -/
@[simp] theorem val_nibbleOf (b : Byte) : (nibbleOf b).val = b.toNat % 16 := by
  simp [nibbleOf, BitVec.extractLsb'_toNat]

@[simp] theorem toNat_addrWord (nnn : Addr) : (addrWord nnn).toNat = nnn.toNat := by
  have := nnn.isLt
  simp [addrWord]; omega

@[simp] theorem toNat_byteWord (b : Byte) : (byteWord b).toNat = b.toNat := by
  have := b.isLt
  simp [byteWord]; omega

/-! ### Flags (R170, R177) -/

/-- Carry out is exactly an unsigned overflow of the sum (R178). -/
theorem carryOut_iff (a b : Byte) : carryOut a b = true ↔ 255 < a.toNat + b.toNat := by
  have ha := a.isLt
  have hb := b.isLt
  simp only [carryOut, BitVec.getLsbD, BitVec.toNat_add, BitVec.truncate_eq_setWidth, BitVec.toNat_setWidth,
    Nat.testBit_eq_decide_div_mod_eq, decide_eq_true_eq]
  omega

/-- No borrow is exactly `a ≥ b` (R179). -/
theorem noBorrow_iff (a b : Byte) : noBorrow a b = true ↔ b.toNat ≤ a.toNat := by
  simp [noBorrow, BitVec.le_def]

/-- Bit 0 (R180). -/
theorem shiftedOutRight_iff (a : Byte) : shiftedOutRight a = true ↔ a.toNat % 2 = 1 := by
  simp [shiftedOutRight, BitVec.getLsbD, Nat.testBit_eq_decide_div_mod_eq]

/-- Bit 7 (R182). -/
theorem shiftedOutLeft_iff (a : Byte) : shiftedOutLeft a = true ↔ 128 ≤ a.toNat := by
  have ha := a.isLt
  simp only [shiftedOutLeft, BitVec.getLsbD, Nat.testBit_eq_decide_div_mod_eq, decide_eq_true_eq]
  omega

/-- Every register after a result and its flag are written: VF holds the flag, whatever x is (R177). -/
@[simp] theorem readV_writeResultThenFlag (x y : Reg) (r : Byte) (f : Bool) (s : State) :
    (writeResultThenFlag x r f s).readV y = if y = flagReg then flagByte f else if y = x then r else s.readV y := by
  simp [writeResultThenFlag]

end Sys2Proof.Machine
end

