-- ==== Sys2Proof/Laws/PerInstr.lean ====
section
/-! SUPPORT. Statements made per instruction. `EncodesTableRow`: the fixed bits of an instruction's word are those of its
row of the opcode map (30_encoding.md R84). -/

namespace Sys2Proof.Laws.EncodesTableRow

open Sys2Proof

/-- The word of `i`, masked as its row of R84 says, is the row's match value. -/
def Statement (i : Instr) : Prop := encode i &&& (opcodeRow i).2 = (opcodeRow i).1

/-- Format A under a mask that keeps the top nibble. -/
theorem formatA_mask (op : BitVec 4) (nnn : Addr) : formatA op nnn &&& 0xF000#16 = op ++ 0x000#12 := by
  have hm : (0xF000#16 : Word) = 0xF#4 ++ 0x000#12 := rfl
  rw [formatA, hm, BitVec.and_append, BitVec.and_zero, show (0xF#4 : BitVec 4) = BitVec.allOnes 4 from rfl,
    BitVec.and_allOnes]

/-- Format XK under a mask that keeps the top nibble. -/
theorem formatXK_mask (op : BitVec 4) (x : Reg) (kk : Byte) : formatXK op x kk &&& 0xF000#16 = (op ++ 0x0#4) ++ 0x00#8 := by
  have hm : (0xF000#16 : Word) = (BitVec.allOnes 4 ++ 0x0#4) ++ 0x00#8 := rfl
  rw [formatXK, hm, BitVec.and_append, BitVec.and_append]
  simp only [BitVec.and_allOnes, BitVec.and_zero]

/-- Format X under a mask that keeps the top nibble and the low byte. -/
theorem formatX_mask (op : BitVec 4) (x : Reg) (kk : Byte) : formatXK op x kk &&& 0xF0FF#16 = (op ++ 0x0#4) ++ kk := by
  have hm : (0xF0FF#16 : Word) = (BitVec.allOnes 4 ++ 0x0#4) ++ BitVec.allOnes 8 := rfl
  rw [formatXK, hm, BitVec.and_append, BitVec.and_append]
  simp only [BitVec.and_allOnes, BitVec.and_zero]

/-- Format XY under a mask that keeps the top and the bottom nibble. -/
theorem formatXY_mask (op : BitVec 4) (x y : Reg) (n : BitVec 4) :
    formatXYN op x y n &&& 0xF00F#16 = (op ++ 0x0#4) ++ (0x0#4 ++ n) := by
  have hm : (0xF00F#16 : Word) = (BitVec.allOnes 4 ++ 0x0#4) ++ (0x0#4 ++ BitVec.allOnes 4) := rfl
  rw [formatXYN, hm, BitVec.and_append, BitVec.and_append, BitVec.and_append]
  simp only [BitVec.and_allOnes, BitVec.and_zero]

/-- Format XYN under a mask that keeps the top nibble. -/
theorem formatXYN_mask (op : BitVec 4) (x y : Reg) (n : BitVec 4) :
    formatXYN op x y n &&& 0xF000#16 = (op ++ 0x0#4) ++ (0x0#4 ++ 0x0#4) := by
  have hm : (0xF000#16 : Word) = (BitVec.allOnes 4 ++ 0x0#4) ++ (0x0#4 ++ 0x0#4) := rfl
  rw [formatXYN, hm, BitVec.and_append, BitVec.and_append, BitVec.and_append]
  simp only [BitVec.and_allOnes, BitVec.and_zero]

theorem clear : Statement .clear := rfl
theorem ret : Statement .ret := rfl
theorem sys (nnn : Addr) : Statement (.sys nnn) := (formatA_mask _ nnn).trans rfl
theorem jump (nnn : Addr) : Statement (.jump nnn) := (formatA_mask _ nnn).trans rfl
theorem call (nnn : Addr) : Statement (.call nnn) := (formatA_mask _ nnn).trans rfl
theorem skipEqualOperand (x : Reg) (kk : Byte) : Statement (.skipEqualOperand x kk) := (formatXK_mask _ x kk).trans rfl
theorem skipNotEqualOperand (x : Reg) (kk : Byte) : Statement (.skipNotEqualOperand x kk) := (formatXK_mask _ x kk).trans rfl
theorem skipEqual (x y : Reg) : Statement (.skipEqual x y) := (formatXY_mask _ x y _).trans rfl
theorem loadOperand (x : Reg) (kk : Byte) : Statement (.loadOperand x kk) := (formatXK_mask _ x kk).trans rfl
theorem addOperand (x : Reg) (kk : Byte) : Statement (.addOperand x kk) := (formatXK_mask _ x kk).trans rfl
theorem load (x y : Reg) : Statement (.load x y) := (formatXY_mask _ x y _).trans rfl
theorem or (x y : Reg) : Statement (.or x y) := (formatXY_mask _ x y _).trans rfl
theorem and (x y : Reg) : Statement (.and x y) := (formatXY_mask _ x y _).trans rfl
theorem xor (x y : Reg) : Statement (.xor x y) := (formatXY_mask _ x y _).trans rfl
theorem add (x y : Reg) : Statement (.add x y) := (formatXY_mask _ x y _).trans rfl
theorem sub (x y : Reg) : Statement (.sub x y) := (formatXY_mask _ x y _).trans rfl
theorem shiftRight (x y : Reg) : Statement (.shiftRight x y) := (formatXY_mask _ x y _).trans rfl
theorem subNegated (x y : Reg) : Statement (.subNegated x y) := (formatXY_mask _ x y _).trans rfl
theorem shiftLeft (x y : Reg) : Statement (.shiftLeft x y) := (formatXY_mask _ x y _).trans rfl
theorem skipNotEqual (x y : Reg) : Statement (.skipNotEqual x y) := (formatXY_mask _ x y _).trans rfl
theorem loadI (nnn : Addr) : Statement (.loadI nnn) := (formatA_mask _ nnn).trans rfl
theorem longJump (nnn : Addr) : Statement (.longJump nnn) := (formatA_mask _ nnn).trans rfl
theorem random (x : Reg) (kk : Byte) : Statement (.random x kk) := (formatXK_mask _ x kk).trans rfl
theorem draw (x y : Reg) (n : RowCount) : Statement (.draw x y n) := (formatXYN_mask _ x y _).trans rfl
theorem skipKeyPressed (x : Reg) : Statement (.skipKeyPressed x) := (formatX_mask _ x _).trans rfl
theorem skipKeyNotPressed (x : Reg) : Statement (.skipKeyNotPressed x) := (formatX_mask _ x _).trans rfl
theorem loadRegisterDelayTimer (x : Reg) : Statement (.loadRegisterDelayTimer x) := (formatX_mask _ x _).trans rfl
theorem loadKey (x : Reg) : Statement (.loadKey x) := (formatX_mask _ x _).trans rfl
theorem loadDelayTimerRegister (x : Reg) : Statement (.loadDelayTimerRegister x) := (formatX_mask _ x _).trans rfl
theorem loadSoundTimerRegister (x : Reg) : Statement (.loadSoundTimerRegister x) := (formatX_mask _ x _).trans rfl
theorem addI (x : Reg) : Statement (.addI x) := (formatX_mask _ x _).trans rfl
theorem loadSprite (x : Reg) : Statement (.loadSprite x) := (formatX_mask _ x _).trans rfl
theorem loadBinaryCodedDecimal (x : Reg) : Statement (.loadBinaryCodedDecimal x) := (formatX_mask _ x _).trans rfl
theorem loadMemoryRegisters (x : Reg) : Statement (.loadMemoryRegisters x) := (formatX_mask _ x _).trans rfl
theorem loadRegistersMemory (x : Reg) : Statement (.loadRegistersMemory x) := (formatX_mask _ x _).trans rfl

end Sys2Proof.Laws.EncodesTableRow
end

