-- ==== Sys2Proof/Laws/Safety.lean ====
section
/-! SUPPORT. How often a sprite covers a pixel (40_display.md R124, R125): row by row, and against `SpriteCovers`. -/

namespace Sys2Proof.Machine

open Sys2Proof Sys2Proof.Config

variable (w h vx vy : Nat) (row : Nat → Byte)

/-- An empty sprite covers nothing. -/
@[simp] theorem coverCount_zero (X Y : Nat) : coverCount w h vx vy row 0 X Y = 0 := rfl

/-- One row more adds the 1 bits of that row that lie over the pixel. -/
theorem coverCount_succ (n X Y : Nat) :
    coverCount w h vx vy row (n + 1) X Y = coverCount w h vx vy row n X Y +
      (List.range 8).countP (fun c => (row n).getLsbD (7 - c) && X == (vx + c) % w && Y == (vy + n) % h) := by
  simp [coverCount, List.range_succ]

/-- A pixel is covered exactly when it is toggled at least once. -/
theorem coverCount_pos_iff (n X Y : Nat) :
    1 ≤ coverCount w h vx vy row n X Y ↔ SpriteCovers w h vx vy row n X Y := by
  simp only [coverCount, SpriteCovers, Nat.succ_le_iff, List.sum_pos_iff_exists_pos_nat, List.mem_map, List.mem_range,
    exists_exists_and_eq_and, List.countP_pos_iff, Bool.and_eq_true, beq_iff_eq]
  constructor
  · rintro ⟨r, hr, c, hc, ⟨hb, hX⟩, hY⟩
    exact ⟨r, c, hr, hc, hb, hX, hY⟩
  · rintro ⟨r, c, hr, hc, hb, hX, hY⟩
    exact ⟨r, hr, c, hc, ⟨hb, hX⟩, hY⟩

end Sys2Proof.Machine
end

