-- ==== Sys2Proof/Laws/Step.lean ====
section
/-! SUPPORT. What a Step can do, said once (30_encoding.md R100 to R106), and the host's transactions. -/

namespace Sys2Proof.Machine

open Sys2Proof Sys2Proof.Config

/-- All that a cycle can do. -/
theorem cycle_cases (s : State) :
    (memSize < s.pc.toNat + 2 ∧ cycle s = .next (recordFault .memoryOutOfRange s.pc 0#16 s.pc.toNat s)) ∨
    (s.pc.toNat + 2 ≤ memSize ∧ ∃ e, decodeWord (s.mem.wordAt s.pc.toNat) = .error e ∧
      cycle s = .next (recordFault .unknownInstruction s.pc (s.mem.wordAt s.pc.toNat) 0 s)) ∨
    (s.pc.toNat + 2 ≤ memSize ∧ ∃ i, decodeWord (s.mem.wordAt s.pc.toNat) = .ok i ∧
      cycle s = exec i (advancePc s)) := by
  unfold cycle fetchWord
  by_cases h : s.pc.toNat + 2 ≤ memSize
  · cases hd : decodeWord (s.mem.wordAt s.pc.toNat) with
    | error e => exact .inr (.inl ⟨h, e, rfl, by simp [h, hd]⟩)
    | ok i => exact .inr (.inr ⟨h, i, rfl, by simp [h, hd]⟩)
  · exact .inl ⟨by omega, by simp [h]⟩

/-- All that a Step can do: not enabled, a poll of the key wait, or a cycle. -/
theorem step_cases (s : State) :
    (∃ r, s.fault = some r ∧ step s = .fault (.stepNotEnabled r)) ∨
    (s.fault = none ∧ ∃ x, s.kwait = some x ∧ step s = .next (keyWaitPoll x s)) ∨
    (s.fault = none ∧ s.kwait = none ∧ step s = cycle s) := by
  unfold step runStep
  cases hf : s.fault with
  | some r => exact .inl ⟨r, rfl, rfl⟩
  | none =>
    cases hk : s.kwait with
    | some x => exact .inr (.inl ⟨rfl, x, rfl, rfl⟩)
    | none => exact .inr (.inr ⟨rfl, rfl, rfl⟩)

/-! ### Tick, KeyDown, KeyUp -/

/-- Tick writes DT and ST alone (R270). -/
theorem tick_eq (s : State) : tick s = (s.setDt (countDown s.dt)).setSt (countDown s.st) := rfl

/-- All that a KeyDown can do (R274). -/
theorem keyDown_cases (k : Key) (s : State) :
    (s.readKey k = .pressed ∧ keyDown k s = s) ∨
    (s.readKey k = .released ∧ s.kwait ≠ none ∧ s.klatch = none ∧
      keyDown k s = (s.setKlatch (some k)).setKey k .pressed) ∨
    (s.readKey k = .released ∧ ¬ (s.kwait ≠ none ∧ s.klatch = none) ∧ keyDown k s = s.setKey k .pressed) := by
  unfold keyDown
  cases hk : s.readKey k with
  | pressed => exact .inl ⟨rfl, rfl⟩
  | released =>
    cases hw : s.kwait <;> cases hl : s.klatch <;> simp

/-- A KeyUp writes one key alone (R275). -/
theorem keyUp_eq (k : Key) (s : State) : keyUp k s = s.setKey k .released := rfl

/-- A list of transactions runs its first part and then the rest. -/
theorem runTransactions_append (ts us : List Transaction) (s : State) :
    runTransactions (ts ++ us) s =
      match runTransactions ts s with
      | .next t => runTransactions us t
      | .fault r => .fault r
      | .refused r => .refused r := by
  induction ts generalizing s with
  | nil => rfl
  | cons t ts ih =>
    simp only [List.cons_append, runTransactions]
    cases transact t s with
    | next s' => exact ih s'
    | fault r => rfl
    | refused r => rfl

end Sys2Proof.Machine
end

