-- ==== Sys2Proof/Tests/Slice0.lean ====
section
/-! SUPPORT. Tests and witnesses. Expected results come from the spec: R84 for the words, 95_test_vectors.md (W and T
numbers) for the rest. First the well-formedness smoke test, then one word of every instruction, then single steps, then
for every obligation with hypotheses a concrete state and operands that meet them. -/

namespace Sys2Proof.Tests

open Sys2Proof Sys2Proof.Config Sys2Proof.Machine

/-! ### Well-formedness (R86): the one check, with the two ill-formed terms it refuses -/

theorem test_wellFormed_refuses_sys_0E0 : (Instr.sys 0x0E0#12).wellFormed = false := by decide
theorem test_wellFormed_refuses_sys_0EE : (Instr.sys 0x0EE#12).wellFormed = false := by decide
theorem test_wellFormed_accepts_sys_0E1 : (Instr.sys 0x0E1#12).wellFormed = true := by decide

/-! ### Decoding: a word of every row of R84, written bit by bit -/

/-- The words of a list decode to the instructions beside them. -/
def decodesAs (rows : List (Nat × Instr)) : Bool := rows.all (fun r => decodeTableWord 16 r.1 == some r.2)

theorem test_decode_control_flow : decodesAs [
    (0b0000_0000_1110_1110, .ret), (0b0000_0001_0010_0011, .sys 0x123#12), (0b0001_1010_1011_1100, .jump 0xABC#12),
    (0b0010_0011_0000_0000, .call 0x300#12), (0b0011_0011_0000_0111, .skipEqualOperand 3 0x07#8),
    (0b0100_0011_0000_1000, .skipNotEqualOperand 3 0x08#8), (0b0101_0001_0010_0000, .skipEqual 1 2),
    (0b1001_0001_0010_0000, .skipNotEqual 1 2), (0b1011_0001_0010_0011, .longJump 0x123#12)] = true := by decide

theorem test_decode_alu : decodesAs [
    (0b0110_0000_0000_0101, .loadOperand 0 0x05#8), (0b0111_0000_0000_0011, .addOperand 0 0x03#8),
    (0b1000_0001_0010_0000, .load 1 2), (0b1000_0001_0010_0001, .or 1 2), (0b1000_0001_0010_0010, .and 1 2),
    (0b1000_0001_0010_0011, .xor 1 2), (0b1000_0001_0010_0100, .add 1 2), (0b1000_0001_0010_0101, .sub 1 2),
    (0b1000_0001_0010_0110, .shiftRight 1 2), (0b1000_0001_0010_0111, .subNegated 1 2),
    (0b1000_0001_0010_1110, .shiftLeft 1 2), (0b1100_0011_0000_1111, .random 3 0x0F#8)] = true := by decide

theorem test_decode_display : decodesAs [
    (0b0000_0000_1110_0000, .clear), (0b1101_0001_0010_0101, .draw 1 2 5), (0b1101_0001_0010_0000, .draw 1 2 0)] =
    true := by decide

theorem test_decode_index_memory : decodesAs [
    (0b1010_0001_0010_0011, .loadI 0x123#12), (0b1111_0010_0001_1110, .addI 2), (0b1111_0100_0010_1001, .loadSprite 4),
    (0b1111_0000_0011_0011, .loadBinaryCodedDecimal 0), (0b1111_0001_0101_0101, .loadMemoryRegisters 1),
    (0b1111_1111_0110_0101, .loadRegistersMemory 15)] = true := by decide

theorem test_decode_keypad_timers : decodesAs [
    (0b1110_0001_1001_1110, .skipKeyPressed 1), (0b1110_0000_1010_0001, .skipKeyNotPressed 0),
    (0b1111_0011_0000_0111, .loadRegisterDelayTimer 3), (0b1111_0001_0000_1010, .loadKey 1),
    (0b1111_0001_0001_0101, .loadDelayTimerRegister 1), (0b1111_0010_0001_1000, .loadSoundTimerRegister 2)] = true := by
  decide

/-- The illegal words of T1, one or more of each group of R87. -/
theorem test_decode_illegal :
    [0x512F, 0x5121, 0x8128, 0x812F, 0x9121, 0xE19F, 0xE000, 0xF130, 0xF000].all
      (fun w => decodeTableWord 16 w == none) = true := by decide

/-- W2: `Addr` and `Nibble` mask. -/
theorem test_addr_nibble : addrOf 0xABCD#16 = 0xBCD#12 ∧ addrOf 0x1000#16 = 0x000#12 ∧ (nibbleOf 0x3C#8).val = 0xC := by
  decide

/-- Any bytes: fewer than two are refused by name, further bytes are given back. -/
theorem test_decode_bytes : (decode [0x12#8] matches .error .truncated) = true ∧
    (decode [0x00#8, 0xE0#8, 0x12#8] matches .ok (.clear, [0x12#8])) = true := ⟨rfl, rfl⟩

/-! ### Helpers for one step -/

/-- The state in an outcome, or `d`. -/
def nextState (o : StepOutcome) (d : State) : State :=
  match o with
  | .next t => t
  | .fault _ => d
  | .refused _ => d

/-- An outcome is a next state. -/
def isNext : StepOutcome → Bool
  | .next _ => true
  | .fault _ => false
  | .refused _ => false

theorem eq_next_of_isNext {o : StepOutcome} (d : State) (h : isNext o = true) : o = .next (nextState o d) := by
  cases o with
  | next t => rfl
  | fault r => cases h
  | refused r => cases h

theorem exists_next_of_isNext {o : StepOutcome} (h : isNext o = true) : ∃ t, o = .next t :=
  ⟨_, eq_next_of_isNext State.reset h⟩

/-- `s` with the word `w` at its PC. -/
abbrev at_ (w : Nat) (s : State) : State := s.withFetchWord 16 w

/-- One Step from `s` with the word `w` at its PC, seen through `f`. -/
def see {α : Type} (w : Nat) (s : State) (f : State → α) : Option α :=
  match step (at_ w s) with
  | .next t => some (f t)
  | .fault _ => none
  | .refused _ => none

/-- What most rows of the vectors list: a register, VF and PC. -/
def reg (x : Reg) (t : State) : Byte × Byte × Word := (t.readV x, t.readV 15, t.pc)

/-- Reset with two registers set. -/
def regs (x : Reg) (a : Byte) (y : Reg) (b : Byte) : State := (State.reset.setV x a).setV y b

/-- FAULT as the vectors write it. -/
def faultOf (t : State) : Option (Chip8Error × Word × Word × Nat) :=
  t.fault.map (fun r => (r.error, r.pc, r.word, r.addr.toNat))

/-- The pixels that are on, row by row from the top. -/
def onPixels (t : State) : List (Nat × Nat) :=
  t.disp.toList.zipIdx.flatMap (fun row => (row.1.toList.zipIdx.filter (fun p => p.1)).map (fun p => (p.2, row.2)))

/-! ### Single steps, at most two an instruction -/

/-- W8a. -/
theorem test_clear : see 0x00E0 (State.reset.setDisp (togglePixel State.reset.disp 3 4)) (fun t => (onPixels t, t.pc)) =
    some ([], 0x202#16) := by decide +kernel

/-- T6c: glyph 1 over the bottom right corner wraps both ways. -/
theorem test_draw_wraps : see 0xD125 ((regs 1 0x3E 2 0x1F).setI 0x005#16) (fun t => (onPixels t, t.readV 15)) =
    some ([(0, 0), (63, 0), (0, 1), (0, 2), (0, 3), (1, 3), (63, 3), (0, 31)], 0x00#8) := by decide +kernel

/-- T6j: glyph 8 over glyph 0. -/
theorem test_draw_collides :
    (see 0xD015 State.reset id).bind (fun t => see 0xD015 (t.setI 0x028#16) (fun u => (onPixels u, u.readV 15))) =
    some ([(1, 2), (2, 2)], 0x01#8) := by decide +kernel

/-- R128 (f): on a grid 4 wide a full row toggles every pixel on and off again, which is a collision. -/
theorem test_blit_small_grid : blit 0 0 [0xFF#8] (blankGrid 4 1) = (blankGrid 4 1, true) := by decide

/-- T3a. -/
theorem test_ret : see 0x00EE (((State.reset.setStackEntry 0 0x0204#16).setSp 1).setPc 0x300#16)
    (fun t => (t.pc, t.sp.val, t.readStack 0)) = some (0x0204#16, 0, 0x0204#16) := by decide

/-- T3b. -/
theorem test_ret_underflow : see 0x00EE State.reset (fun t => (faultOf t, t.pc)) =
    some (some (.stackUnderflow, 0x200#16, 0x00EE#16, 0), 0x200#16) := by decide

/-- T3c. -/
theorem test_sys : see 0x0123 (State.reset.setPc 0x300#16) State.pc = some 0x302#16 := by decide

/-- T3g. -/
theorem test_jump : see 0x1FFF State.reset State.pc = some 0x0FFF#16 := by decide

/-- T3i. -/
theorem test_call_deepest : see 0x2300 ((State.reset.setSp 15).setPc 0x400#16)
    (fun t => (t.readStack 15, t.sp.val, t.pc)) = some (0x0402#16, 16, 0x0300#16) := by decide

/-- T3j. -/
theorem test_call_overflow : see 0x2300 ((State.reset.setSp 16).setPc 0x400#16)
    (fun t => (faultOf t, t.sp.val, t.pc)) = some (some (.stackOverflow, 0x400#16, 0x2300#16, 0), 16, 0x400#16) := by decide

/-- W4a, W4b. -/
theorem test_skipEqualOperand : see 0x3307 (regs 3 0x07 0 0) State.pc = some 0x204#16 ∧
    see 0x3308 (regs 3 0x07 0 0) State.pc = some 0x202#16 := by decide

/-- W4c, W4d. -/
theorem test_skipNotEqualOperand : see 0x4308 (regs 3 0x07 0 0) State.pc = some 0x204#16 ∧
    see 0x4307 (regs 3 0x07 0 0) State.pc = some 0x202#16 := by decide

/-- W4e, W4f. -/
theorem test_skipEqual : see 0x5120 (regs 1 0x10 2 0x10) State.pc = some 0x204#16 ∧
    see 0x5120 (regs 1 0x10 2 0x11) State.pc = some 0x202#16 := by decide

/-- W4g, W4h. -/
theorem test_skipNotEqual : see 0x9120 (regs 1 0x10 2 0x11) State.pc = some 0x204#16 ∧
    see 0x9120 (regs 1 0x10 2 0x10) State.pc = some 0x202#16 := by decide

/-- T3r, T3s. -/
theorem test_longJump : see 0xBFFF (regs 0 0xFF 1 0) State.pc = some 0x10FE#16 ∧
    see 0xB100 (regs 0 0x00 1 0x50) State.pc = some 0x0100#16 := by decide

/-- T4b. -/
theorem test_loadOperand : see 0x6FAB State.reset (reg 15) = some (0xAB#8, 0xAB#8, 0x202#16) := by decide

/-- W3a. -/
theorem test_addOperand : see 0x7001 (regs 0 0xFF 15 0x07) (reg 0) = some (0x00#8, 0x07#8, 0x202#16) := by decide

/-- T4f. -/
theorem test_load : see 0x8010 (regs 0 0 1 0x2A) (reg 0) = some (0x2A#8, 0x00#8, 0x202#16) := by decide

/-- T4g. -/
theorem test_or : see 0x8011 ((regs 0 0xF0 1 0x0C).setV 15 0x01) (reg 0) = some (0xFC#8, 0x01#8, 0x202#16) := by decide

/-- T4h. -/
theorem test_and : see 0x8012 (regs 0 0xF0 1 0x3C) (reg 0) = some (0x30#8, 0x00#8, 0x202#16) := by decide

/-- T4i. -/
theorem test_xor : see 0x8013 (regs 0 0xF0 1 0x3C) (reg 0) = some (0xCC#8, 0x00#8, 0x202#16) := by decide

/-- T4l. -/
theorem test_add : see 0x8014 (regs 0 0x80 1 0x80) (reg 0) = some (0x00#8, 0x01#8, 0x202#16) := by decide

/-- T4n: x = F keeps the flag. -/
theorem test_add_into_VF : see 0x8F14 (regs 15 0xFF 1 0x01) (reg 15) = some (0x01#8, 0x01#8, 0x202#16) := by decide

/-- W3c. -/
theorem test_sub : see 0x8015 (regs 0 0x01 1 0x02) (reg 0) = some (0xFF#8, 0x00#8, 0x202#16) := by decide

/-- T4p: no borrow for equal operands. -/
theorem test_sub_equal : see 0x8015 (regs 0 0x05 1 0x05) (reg 0) = some (0x00#8, 0x01#8, 0x202#16) := by decide

/-- T4u and, for SHIFT_SRC = VY, T4v. -/
theorem test_shiftRight : see 0x8016 (regs 0 0x04 1 0x01) (reg 0) = some (0x02#8, 0x00#8, 0x202#16) ∧
    reg 0 (shiftRightFrom .vy 0 1 (regs 0 0x04 1 0x01)) = (0x00#8, 0x01#8, 0x200#16) := by decide

/-- T4x, T4y. -/
theorem test_subNegated : see 0x8017 (regs 0 0x02 1 0x05) (reg 0) = some (0x03#8, 0x01#8, 0x202#16) ∧
    see 0x8017 (regs 0 0x02 1 0x01) (reg 0) = some (0xFF#8, 0x00#8, 0x202#16) := by decide

/-- T4aa and, for SHIFT_SRC = VY, T4ac. -/
theorem test_shiftLeft : see 0x800E (regs 0 0x81 1 0) (reg 0) = some (0x02#8, 0x01#8, 0x202#16) ∧
    reg 0 (shiftLeftFrom .vy 0 1 (regs 0 0x01 1 0x80)) = (0x00#8, 0x01#8, 0x200#16) := by decide

/-- T4ae, the draw given. -/
theorem test_random : (randomWith 0xB7 3 0x0F State.reset).readV 3 = 0x07#8 := by decide

/-- One byte of the stream is drawn (R183). -/
theorem test_random_draws_once : see 0xC30F State.reset (fun t => (t.drawIndex, t.pc)) = some (1, 0x202#16) := by decide

/-- T5a. -/
theorem test_loadI : see 0xA123 State.reset State.i = some 0x0123#16 := by decide

/-- T5c, T5d: past 0xFFF no flag, past 0xFFFF a wrap. -/
theorem test_addI : see 0xF01E ((regs 0 0x01 15 0).setI 0x0FFF#16) (fun t => (t.i, t.readV 15)) = some (0x1000#16, 0x00#8) ∧
    see 0xF01E ((regs 0 0x02 15 0).setI 0xFFFF#16) State.i = some 0x0001#16 := by decide

/-- T5f, T5g. -/
theorem test_loadSprite : see 0xF429 (regs 4 0x0F 0 0) State.i = some 0x004B#16 ∧
    see 0xF429 (regs 4 0x1A 0 0) State.i = some 0x0032#16 := by decide

/-- T5h. -/
theorem test_bcd : see 0xF033 ((regs 0 0xFF 1 0).setI 0x300#16)
    (fun t => (t.mem.readBytes 0x300 3, t.i, t.pc)) = some ([0x02#8, 0x05#8, 0x05#8], 0x300#16, 0x202#16) := by decide

/-- T5m. -/
theorem test_bcd_out_of_range : see 0xF033 (State.reset.setI 0xFFE#16) (fun t => (faultOf t, t.mem.read 0xFFE, t.pc)) =
    some (some (.memoryOutOfRange, 0x200#16, 0xF033#16, 0xFFE), 0x00#8, 0x200#16) := by decide

/-- T5n. -/
theorem test_block_store : see 0xF155 ((regs 0 0x11 1 0x22).setI 0x300#16) (fun t => (t.mem.readBytes 0x300 3, t.i)) =
    some ([0x11#8, 0x22#8, 0x00#8], 0x300#16) := by decide

/-- T5q: no byte of a store that leaves memory is written. -/
theorem test_block_store_out_of_range : see 0xF155 ((regs 0 0x11 1 0x22).setI 0xFFF#16)
    (fun t => (faultOf t, t.mem.read 0xFFF)) = some (some (.memoryOutOfRange, 0x200#16, 0xF155#16, 0xFFF), 0x00#8) := by
  decide

/-- T5s. -/
theorem test_block_load : see 0xF165
    (((regs 2 0x33 0 0).setMem (Memory.writeBytes [] 0x300 [0x11, 0x22])).setI 0x300#16)
    (fun t => ([t.readV 0, t.readV 1, t.readV 2], t.i)) = some ([0x11#8, 0x22#8, 0x33#8], 0x300#16) := by decide

/-- T5v: the font is readable memory. -/
theorem test_block_load_font : see 0xF065 State.reset (fun t => t.readV 0) = some 0xF0#8 := by decide

/-- T7a and W4j. -/
theorem test_skipKeyPressed : see 0xE09E ((regs 0 0x15 1 0).setKey 5 .pressed) State.pc = some 0x204#16 ∧
    see 0xEA9E (regs 10 0x0A 1 0) State.pc = some 0x202#16 := by decide

/-- W4k, W4l. -/
theorem test_skipKeyNotPressed : see 0xE0A1 (regs 0 0x03 1 0) State.pc = some 0x204#16 ∧
    see 0xE0A1 ((regs 0 0x03 1 0).setKey 3 .pressed) State.pc = some 0x202#16 := by decide

/-- T7b. -/
theorem test_loadRegisterDelayTimer : see 0xF307 (State.reset.setDt 0x3C#8) (reg 3) = some (0x3C#8, 0x00#8, 0x202#16) := by
  decide

/-- T8a, with a latch that a wait must forget. -/
theorem test_loadKey : see 0xF50A ((State.reset.setPc 0x210#16).setKlatch (some 2)) (fun t => (t.kwait, t.klatch, t.pc)) =
    some (some 5, none, 0x210#16) := by decide

/-- The end of T8d: the first key is the one written. -/
theorem test_loadKey_first_key : (see 0xF50A (State.reset.setPc 0x210#16) id).map
    (fun t => let u := keyWaitPoll 5 (keyDown 0x3 (keyDown 0xC t)); (u.readV 5, u.kwait, u.klatch, u.pc)) =
    some (0x0C#8, none, none, 0x212#16) := by decide

/-- T7c. -/
theorem test_loadDelayTimerRegister : see 0xF115 (regs 1 0x3C 0 0) (fun t => (t.dt, t.pc)) = some (0x3C#8, 0x202#16) := by
  decide

/-- T7d. -/
theorem test_loadSoundTimerRegister : see 0xF218 (regs 2 0x05 0 0) (fun t => (t.st, t.pc)) = some (0x05#8, 0x202#16) := by
  decide

/-- T2a. -/
theorem test_illegal_word : see 0x5121 State.reset (fun t => (faultOf t, t.pc)) =
    some (some (.unknownInstruction, 0x200#16, 0x5121#16, 0), 0x200#16) := by decide

/-- T2b. -/
theorem test_fetch_out_of_range : faultOf (nextState (step (State.reset.setPc 0x0FFF#16)) State.reset) =
    some (.memoryOutOfRange, 0x0FFF#16, 0x0000#16, 0x0FFF) := by decide

/-- W7. -/
theorem test_tick : (tick ((State.reset.setDt 1).setSt 2)).dt = 0x00#8 ∧ (tick ((State.reset.setDt 1).setSt 2)).st = 0x01#8 ∧
    (tick State.reset).dt = 0x00#8 := by decide

/-- T7f, T7g: without a wait a key is pressed and not latched; a second KeyDown changes nothing. -/
theorem test_keyDown : (keyDown 3 State.reset).readKey 3 = .pressed ∧ (keyDown 3 State.reset).klatch = none ∧
    keyDown 3 (keyDown 3 State.reset) = keyDown 3 State.reset ∧ keyUp 3 (keyDown 3 State.reset) = State.reset := by
  decide

/-- Writing what an unlisted address reads as removes its entry (log 7). -/
theorem test_memory_canonical : Memory.write [(0x300, 0x01#8)] 0x300 0x00#8 = [] ∧ Memory.write [] 0x000 0xF0#8 = [] := by
  decide

/-! ### Witnesses: each meets all hypotheses of the obligation it is named after -/

/-- A state before a plain word; it meets the invariant. -/
def plain : State := at_ 0x6005 State.reset

theorem plain_inv : Inv plain where
  memCanonical := by decide
  pcBound := by decide
  stackBound := by decide
  waitingPc := by decide
  latchWaits := by decide
  faultNotWaiting := by decide
  faultPc := by intro r h; cases h
  faultKind := by intro r h; cases h
  faultAddr := by intro r h; cases h

/-- A state in a key wait for V5 with key 12 latched; it meets the invariant. -/
def waiting : State := ((State.reset.setKwait (some 5)).setKlatch (some 12)).setKey 12 .pressed

theorem waiting_inv : Inv waiting where
  memCanonical := by decide
  pcBound := by decide
  stackBound := by decide
  waitingPc := by decide
  latchWaits := by decide
  faultNotWaiting := by decide
  faultPc := by intro r h; cases h
  faultKind := by intro r h; cases h
  faultAddr := by intro r h; cases h

theorem witness_ConstructLoadsTheImageOrFails : (List.replicate 3584 0xAA#8).length ≤ 3584 ∧
    3584 < (List.replicate 3585 0xAA#8).length :=
  ⟨Nat.le_of_eq List.length_replicate, Nat.lt_of_lt_of_eq (by decide) List.length_replicate.symm⟩

theorem witness_InvariantHoldsAtReset :
    construct (some [0x12#8, 0x00#8]) = .ok (State.reset.setMem (Memory.writeBytes [] 0x200 [0x12#8, 0x00#8])) := rfl

theorem witness_StepKeepsTheInvariant : (Inv plain ∧ ∃ t, step plain = .next t) ∧ (Inv waiting ∧ ∃ t, step waiting = .next t) :=
  ⟨⟨plain_inv, exists_next_of_isNext (by decide)⟩, waiting_inv, exists_next_of_isNext (by decide)⟩

theorem witness_TransactionsKeepTheInvariant : Inv waiting ∧
    ∃ t, runTransactions [.tick, .keyDown 3, .step, .keyUp 12] waiting = .next t :=
  ⟨waiting_inv, exists_next_of_isNext (by decide)⟩

/-- The bounds of R11: the last byte, the first address outside, no byte at all there. -/
theorem witness_MemReadAndMemWriteCheckThenAccess : (0xFFF + 1 ≤ 4096) ∧ (1 ≤ 1 ∧ 4096 < 0x1000 + 1) ∧
    ([] : List Byte).length = 0 ∧ 0xFFF + [0x01#8].length ≤ 4096 ∧ (1 ≤ [0x01#8].length ∧ 4096 < 0x1000 + [0x01#8].length) := by
  decide

theorem witness_CanonicalMemoryIsItsBytes : Memory.wf [(0x300, 0x01#8)] ∧
    ∀ a : Nat, Memory.read [(0x300, 0x01#8)] a = Memory.read (Memory.write [] 0x300 0x01#8) a :=
  ⟨by decide, fun _ => rfl⟩

/-- The word stored ends at the last byte of memory. -/
def storing : State := (regs 0 0x12 1 0x34).setI 0xFFE#16

/-- Both stores up to the last byte of memory; a fetch of the last word, and one of which only the second byte is stored. -/
theorem witness_FetchSeesAStore :
    ((0xFFE#16).toNat + 2 ≤ 4096 ∧ (0xFFD#16).toNat + 2 ≤ 4096) ∧
    (storing.i.toNat + (registersUpTo storing 1).length ≤ 4096 ∧
      exec (.loadMemoryRegisters 1) storing = .next (nextState (exec (.loadMemoryRegisters 1) storing) storing)) ∧
    ((storing.setI 0xFFD#16).i.toNat + (decimalDigits (storing.readV 1)).length ≤ 4096 ∧
      exec (.loadBinaryCodedDecimal 1) (storing.setI 0xFFD#16) =
        .next (nextState (exec (.loadBinaryCodedDecimal 1) (storing.setI 0xFFD#16)) storing)) :=
  ⟨by decide, ⟨by decide, eq_next_of_isNext _ (by decide)⟩, by decide, eq_next_of_isNext _ (by decide)⟩

theorem witness_DecodeOfEncodeIsTheInstruction : (Instr.sys 0x0E1#12).wellFormed = true ∧ Instr.ret.wellFormed = true := by
  decide

theorem witness_EncodeOfDecodeIsTheWord : decodeWord 0x00E1#16 = .ok (.sys 0x0E1#12) := rfl

theorem witness_DecodedWordFitsOneRow : decodeWord 0x00EE#16 = .ok .ret ∧ decodeWord 0x8127#16 = .ok (.subNegated 1 2) :=
  ⟨rfl, rfl⟩

/-- The last word of memory is a Sys. -/
def lastWord : State := State.reset.setPc 0xFFE#16

theorem witness_StepRunsTheDecodedInstruction : lastWord.fault = none ∧ lastWord.kwait = none ∧ lastWord.pc.toNat + 2 ≤ 4096 ∧
    decode [lastWord.readByte lastWord.pc.toNat, lastWord.readByte (lastWord.pc.toNat + 1)] = .ok (.sys 0x000#12, []) :=
  ⟨rfl, rfl, by decide, rfl⟩

/-- The first PC whose fetch leaves memory, and an illegal word in the last place. -/
theorem witness_FailedFetchOrDecodeRecordsTheError :
    (4096 < (State.reset.setPc 0xFFF#16).pc.toNat + 2 ∧ (State.reset.setPc 0xFFF#16).fault = none ∧
      (State.reset.setPc 0xFFF#16).kwait = none) ∧
    (at_ 0x5121 lastWord).pc.toNat + 2 ≤ 4096 ∧ (at_ 0x5121 lastWord).fault = none ∧ (at_ 0x5121 lastWord).kwait = none ∧
    decodeWord (opcodeOfBytes ((at_ 0x5121 lastWord).readByte (at_ 0x5121 lastWord).pc.toNat)
      ((at_ 0x5121 lastWord).readByte ((at_ 0x5121 lastWord).pc.toNat + 1))) = .error .unknownInstruction :=
  ⟨by decide, by decide, by decide, by decide, rfl⟩

/-- An error of a fetch, of a data access and of a Return: the two clauses on the recorded address, and the word of each. -/
theorem witness_ErrorsArePrecise :
    [State.reset.setPc 0xFFF#16, at_ 0xF055 (State.reset.setI 0x1000#16), at_ 0x00EE State.reset].all (fun s =>
      s.fault.isNone && isNext (step s) && (nextState (step s) s).fault.isSome) = true := by decide

theorem witness_NoStepIsEnabledAfterAnError :
    (State.reset.setFault (some ⟨.stackUnderflow, 0x200#16, 0x00EE#16, 0⟩)).fault =
      some ⟨.stackUnderflow, 0x200#16, 0x00EE#16, 0⟩ ∧ Transaction.tick ≠ .step ∧ Transaction.keyDown 3 ≠ .step := by decide

theorem witness_EveryEnabledStepAnswersAState : plain.fault = none ∧ waiting.fault = none := by decide

/-- The six cases, each one place past its limit, and a case that completes. -/
theorem witness_InstructionsRaiseExactlyOnTheirCheck :
    [(Instr.ret, State.reset), (.call 0x300#12, State.reset.setSp 16), (.draw 0 1 1, State.reset.setI 0x1000#16),
      (.loadBinaryCodedDecimal 0, State.reset.setI 0xFFE#16), (.loadMemoryRegisters 15, State.reset.setI 0xFF1#16),
      (.loadRegistersMemory 15, State.reset.setI 0xFF1#16)].all (fun p =>
        p.2.fault.isNone && isNext (exec p.1 (advancePc p.2)) && (nextState (exec p.1 (advancePc p.2)) p.2).fault.isSome) =
      true ∧
    isNext (exec (.loadMemoryRegisters 15) (advancePc (State.reset.setI 0xFF0#16))) = true ∧
    (nextState (exec (.loadMemoryRegisters 15) (advancePc (State.reset.setI 0xFF0#16))) plain).fault = none := by decide

theorem witness_InstructionsWriteOnlyTheirParts : ∃ t, exec (.add 1 2) plain = .next t :=
  exists_next_of_isNext (by decide)

theorem witness_OnlyFlagWritersAndVFDestinationsChangeVF :
    (∃ t, exec (.loadRegistersMemory 14) plain = .next t) ∧ mayWriteVF (.loadRegistersMemory 14) = false :=
  ⟨exists_next_of_isNext (by decide), by decide⟩

theorem witness_SoundTimerIsNeverRead : ∃ t, step (at_ 0xF218 State.reset) = .next t := exists_next_of_isNext (by decide)

/-- SP = 1: the entry in use agrees, the others do not. -/
theorem witness_StaleStackEntriesAreNeverRead :
    (∀ j : Fin 16, j.val < (at_ 0x00EE (State.reset.setSp 1)).sp.val →
      ((Vector.replicate 16 0x0777#16).set 0 0x0000#16)[j.val] = (at_ 0x00EE (State.reset.setSp 1)).readStack j) ∧
    ∃ t, step (at_ 0x00EE (State.reset.setSp 1)) = .next t := ⟨by decide, exists_next_of_isNext (by decide)⟩

/-- The last two words of reset memory. -/
theorem witness_ZeroWordsRunAsNoOps : (State.reset.setPc 0xFFC#16).fault = none ∧ (State.reset.setPc 0xFFC#16).kwait = none ∧
    (State.reset.setPc 0xFFC#16).pc.toNat + 2 * 2 ≤ 4096 ∧
    ∀ d : Fin 4, (State.reset.setPc 0xFFC#16).readByte ((State.reset.setPc 0xFFC#16).pc.toNat + d.val) = 0 := by decide

/-- A self-jump, and the same address reached through another word (not the end of a run). -/
theorem witness_AFinishedRunStaysFinished : (at_ 0x1200 State.reset).finished = true ∧
    (at_ 0x1202 State.reset).finished = false := by decide

theorem witness_BlitTurnsOverExactlyTheCoveredPixels : 8 ≤ 8 ∧ [0xFF#8].length ≤ 1 := by decide

/-- No row, and a sprite that ends at the last byte of memory. -/
theorem witness_DrawXorsTheSpriteAndReportsCollision : (0 : RowCount).val = 0 ∧
    (State.reset.setI 0xFF1#16).i.toNat + (15 : RowCount).val ≤ 4096 := by decide

/-- Glyph 0 drawn on a clear display, and the state of the second Draw. -/
theorem witness_DrawingTwiceRestoresTheDisplay :
    exec (.draw 0 0 5) State.reset = .next (nextState (exec (.draw 0 0 5) State.reset) State.reset) ∧
    State.reset.i.toNat + (5 : RowCount).val ≤ 4096 ∧
    (nextState (exec (.draw 0 0 5) State.reset) State.reset).i = State.reset.i ∧
    (nextState (exec (.draw 0 0 5) State.reset) State.reset).readV 0 = State.reset.readV 0 ∧
    (∀ r : Fin 5, (nextState (exec (.draw 0 0 5) State.reset) State.reset).readByte (State.reset.i.toNat + r.val) =
      State.reset.readByte (State.reset.i.toNat + r.val)) ∧
    (∀ (X : Fin displayW) (Y : Fin displayH), getPixel State.reset.disp X Y = false) ∧
    State.reset.readByte (State.reset.i.toNat + 0) ≠ 0 :=
  ⟨eq_next_of_isNext _ (by decide +kernel), by decide, by decide +kernel, by decide +kernel, by decide +kernel,
    by simp [getPixel, State.reset], by decide⟩

theorem witness_CallPushesTheReturnAddress : State.reset.sp.val < 16 ∧ (State.reset.setSp 15).sp.val < 16 := by decide

theorem witness_ReturnPopsIntoPc : (State.reset.setSp 1).sp.val = (0 : Fin 16).val + 1 ∧
    (State.reset.setSp 16).sp.val = (15 : Fin 16).val + 1 := by decide

/-- The deepest Call, and a Return in another state with the same stack. -/
theorem witness_ReturnUndoesCall :
    (State.reset.setSp 15).sp.val < 16 ∧
    exec (.call 0x300#12) (advancePc (State.reset.setSp 15)) =
      .next (nextState (exec (.call 0x300#12) (advancePc (State.reset.setSp 15))) plain) ∧
    ((nextState (exec (.call 0x300#12) (advancePc (State.reset.setSp 15))) plain).setV 3 0x07).sp =
      (nextState (exec (.call 0x300#12) (advancePc (State.reset.setSp 15))) plain).sp ∧
    ∀ j : Fin 16, ((nextState (exec (.call 0x300#12) (advancePc (State.reset.setSp 15))) plain).setV 3 0x07).readStack j =
      (nextState (exec (.call 0x300#12) (advancePc (State.reset.setSp 15))) plain).readStack j :=
  ⟨by decide, eq_next_of_isNext _ (by decide), rfl, fun _ => rfl⟩

theorem witness_StackErrorsLeaveTheState : (State.reset.setSp 16).sp.val = 16 ∧ State.reset.sp.val = 0 := by decide

theorem witness_KeySkipsTestTheKeyOfTheLowNibble : (5 : Key).val = ((regs 0 0x15 1 0).readV 0).toNat % 16 := by decide

/-- A register other than VF, as the first clauses of the five flag writers assume. -/
theorem witness_flag_writers : (14 : Reg) ≠ 15 := by decide

theorem witness_ShiftsMoveOneBitIntoVF : 0x81 = ((regs 0 0x81 1 0).readV (if ShiftSrc.vx = .vx then 0 else 1)).toNat := by decide

theorem witness_BcdStoresTheThreeDigits : (State.reset.setI 0xFFD#16).i.toNat + 3 ≤ 4096 := by decide

/-- One register at the last byte, and all sixteen up to it; for the three statements of block transfers. -/
theorem witness_BlockStoreWritesV0ToVx : (State.reset.setI 0xFFF#16).i.toNat + (0 : Reg).val + 1 ≤ 4096 ∧
    (State.reset.setI 0xFF0#16).i.toNat + (15 : Reg).val + 1 ≤ 4096 := by decide

theorem witness_BlockLoadReadsV0ToVx : (State.reset.setI 0xFFF#16).i.toNat + (0 : Reg).val + 1 ≤ 4096 ∧
    (State.reset.setI 0xFF0#16).i.toNat + (15 : Reg).val + 1 ≤ 4096 := by decide

theorem witness_BlockLoadUndoesBlockStore :
    storing.i.toNat + (1 : Reg).val + 1 ≤ 4096 ∧
    exec (.loadMemoryRegisters 1) storing = .next (nextState (exec (.loadMemoryRegisters 1) storing) storing) ∧
    (storing.setMem (nextState (exec (.loadMemoryRegisters 1) storing) storing).mem).i = storing.i ∧
    (storing.setMem (nextState (exec (.loadMemoryRegisters 1) storing) storing).mem).mem =
      (nextState (exec (.loadMemoryRegisters 1) storing) storing).mem :=
  ⟨by decide, eq_next_of_isNext _ (by decide), rfl, rfl⟩

/-- The four clauses, each one byte past the end. -/
theorem witness_OutOfRangeAccessesRaiseAtI :
    (1 ≤ (2 : RowCount).val ∧ 4096 < (State.reset.setI 0xFFF#16).i.toNat + (2 : RowCount).val) ∧
    4096 < (State.reset.setI 0xFFE#16).i.toNat + 3 ∧ 4096 < (State.reset.setI 0xFFF#16).i.toNat + (1 : Reg).val + 1 ∧
    4096 < (State.reset.setI 0x1000#16).i.toNat + (0 : Reg).val + 1 := by decide

theorem witness_KeyWaitPollConsumesALatchedKey :
    (waiting.fault = none ∧ waiting.kwait = some 5 ∧ waiting.klatch = some 12) ∧
    ((waiting.setKlatch none).fault = none ∧ (waiting.setKlatch none).kwait = some 5 ∧
      (waiting.setKlatch none).klatch = none) := by decide

theorem witness_TheWaitLastsUntilAKeyGoesDown :
    (waiting.setKlatch none).fault = none ∧ (waiting.setKlatch none).kwait = some 5 ∧ (waiting.setKlatch none).klatch = none ∧
    ∀ k : Key, .keyDown k ∉ [Transaction.step, .tick, .keyUp 12, .step] := by decide

theorem witness_TheFirstLatchedKeyIsTheOneWritten : waiting.fault = none ∧ waiting.kwait = some 5 ∧
    waiting.klatch = some 12 ∧ .step ∉ [Transaction.keyDown 3, .keyUp 12, .tick] := by decide

end Sys2Proof.Tests
end

section
/-! MemRead and MemWrite (00_scope.md R11): what each answers inside its range and outside it, for every address and
length. -/

namespace Sys2Proof.Machine

open Sys2Proof Sys2Proof.Config

theorem Memory.getD_readBytes (m : Memory) (a n j : Nat) (d : Byte) (hj : j < n) :
    (m.readBytes a n).getD j d = m.read (a + j) := by
  have hlen : j < (m.readBytes a n).length := by simpa using hj
  rw [← List.getElem_eq_getD (h := hlen), Memory.getElem_readBytes]

theorem memRead_of_inRange (m : Memory) {a n : Nat} (h : n = 0 ∨ a + n ≤ memSize) :
    memRead m a n = some (m.readBytes a n) := by
  obtain ⟨-, hread⟩ | ⟨hout, -⟩ := memRead_cases m a n
  · exact hread
  · exact absurd h hout

theorem memRead_of_outOfRange (m : Memory) {a n : Nat} (hn : 1 ≤ n) (h : memSize < a + n) : memRead m a n = none := by
  obtain ⟨hin, -⟩ | ⟨-, hraise⟩ := memRead_cases m a n
  · omega
  · exact hraise

theorem memWrite_of_inRange (m : Memory) {a : Nat} {bs : List Byte} (h : bs.length = 0 ∨ a + bs.length ≤ memSize) :
    memWrite m a bs = some (m.writeBytes a bs) := by
  obtain ⟨-, hwrite⟩ | ⟨hout, -⟩ := memWrite_cases m a bs
  · exact hwrite
  · exact absurd h hout

theorem memWrite_of_outOfRange (m : Memory) {a : Nat} {bs : List Byte} (hn : 1 ≤ bs.length)
    (h : memSize < a + bs.length) : memWrite m a bs = none := by
  obtain ⟨hin, -⟩ | ⟨-, hraise⟩ := memWrite_cases m a bs
  · omega
  · exact hraise

/-- Settles O6: each primitive's range check decides between its access and the raise, and the access is read back byte
by byte. -/
theorem memReadAndMemWriteCheckThenAccess : Obligations.MemReadAndMemWriteCheckThenAccess := by
  unfold Obligations.MemReadAndMemWriteCheckThenAccess
  intro m a
  refine ⟨fun n => ⟨fun hin => ?read, memRead_of_outOfRange m⟩, fun bs => ⟨fun hin => ?write, memWrite_of_outOfRange m⟩⟩
  case read =>
    exact ⟨m.readBytes a n, memRead_of_inRange m hin, Memory.length_readBytes m a n,
      fun j hj => Memory.getD_readBytes m a n j 0 hj⟩
  case write =>
    exact ⟨m.writeBytes a bs, memWrite_of_inRange m hin, Memory.read_writeBytes m a bs⟩

end Sys2Proof.Machine
end

section
/-! Frames: which parts each update of the state leaves as they were, one rule per update. A rule prolongs a frame by its
update, so the frame of an instruction is the chain of the updates that its meaning makes. -/

namespace Sys2Proof.Machine

open Sys2Proof Sys2Proof.Config

variable {ps : List Part} {s t u : State}

theorem SameExcept.refl (ps : List Part) (s : State) : SameExcept ps s s := by
  intro p _
  cases p <;> simp [Part.same]

theorem SameExcept.mono {qs : List Part} (h : SameExcept ps s t) (hsub : ps ⊆ qs) : SameExcept qs s t :=
  fun p hp => h p (fun hmem => hp (hsub hmem))

/-- An update that touches the part `q` alone keeps every frame that lets `q` change. -/
theorem SameExcept.update (q : Part) (h : SameExcept ps s t) (hq : q ∈ ps)
    (hother : ∀ p : Part, p ≠ q → p.same s t → p.same s u) : SameExcept ps s u :=
  fun p hp => hother p (fun heq => hp (heq ▸ hq)) (h p hp)

/-! In each rule every part but one is the same by definition before and after the update. -/

theorem SameExcept.setV (h : SameExcept ps s t) (x : Reg) (b : Byte) (hp : .v ∈ ps := by simp [writtenParts]) :
    SameExcept ps s (t.setV x b) :=
  h.update .v hp fun p _ _ => by cases p <;> trivial

theorem SameExcept.setVs (h : SameExcept ps s t) (v : Vector Byte numV) (hp : .v ∈ ps := by simp [writtenParts]) :
    SameExcept ps s (t.setVs v) :=
  h.update .v hp fun p _ _ => by cases p <;> trivial

theorem SameExcept.setI (h : SameExcept ps s t) (a : Word) (hp : .i ∈ ps := by simp [writtenParts]) :
    SameExcept ps s (t.setI a) :=
  h.update .i hp fun p _ _ => by cases p <;> trivial

theorem SameExcept.setPc (h : SameExcept ps s t) (a : Word) (hp : .pc ∈ ps := by simp [writtenParts]) :
    SameExcept ps s (t.setPc a) :=
  h.update .pc hp fun p _ _ => by cases p <;> trivial

theorem SameExcept.setStackEntry (h : SameExcept ps s t) (j : Fin stackDepth) (a : Word)
    (hp : .stack ∈ ps := by simp [writtenParts]) : SameExcept ps s (t.setStackEntry j a) :=
  h.update .stack hp fun p _ _ => by cases p <;> trivial

theorem SameExcept.setSp (h : SameExcept ps s t) (n : Fin (stackDepth + 1))
    (hp : .sp ∈ ps := by simp [writtenParts]) : SameExcept ps s (t.setSp n) :=
  h.update .sp hp fun p _ _ => by cases p <;> trivial

theorem SameExcept.setDt (h : SameExcept ps s t) (b : Byte) (hp : .dt ∈ ps := by simp [writtenParts]) :
    SameExcept ps s (t.setDt b) :=
  h.update .dt hp fun p _ _ => by cases p <;> trivial

theorem SameExcept.setSt (h : SameExcept ps s t) (b : Byte) (hp : .st ∈ ps := by simp [writtenParts]) :
    SameExcept ps s (t.setSt b) :=
  h.update .st hp fun p _ _ => by cases p <;> trivial

theorem SameExcept.setMem (h : SameExcept ps s t) (m : Memory) (hp : .mem ∈ ps := by simp [writtenParts]) :
    SameExcept ps s (t.setMem m) :=
  h.update .mem hp fun p _ _ => by cases p <;> trivial

theorem SameExcept.setDisp (h : SameExcept ps s t) (d : Grid displayW displayH)
    (hp : .disp ∈ ps := by simp [writtenParts]) : SameExcept ps s (t.setDisp d) :=
  h.update .disp hp fun p _ _ => by cases p <;> trivial

theorem SameExcept.setKey (h : SameExcept ps s t) (k : Key) (c : KeyState) (hp : .key ∈ ps := by simp [writtenParts]) :
    SameExcept ps s (t.setKey k c) :=
  h.update .key hp fun p _ _ => by cases p <;> trivial

theorem SameExcept.setKwait (h : SameExcept ps s t) (o : Option Reg) (hp : .kwait ∈ ps := by simp [writtenParts]) :
    SameExcept ps s (t.setKwait o) :=
  h.update .kwait hp fun p _ _ => by cases p <;> trivial

theorem SameExcept.setKlatch (h : SameExcept ps s t) (o : Option Key) (hp : .klatch ∈ ps := by simp [writtenParts]) :
    SameExcept ps s (t.setKlatch o) :=
  h.update .klatch hp fun p _ _ => by cases p <;> trivial

theorem SameExcept.setFault (h : SameExcept ps s t) (o : Option FaultRecord)
    (hp : .fault ∈ ps := by simp [writtenParts]) : SameExcept ps s (t.setFault o) :=
  h.update .fault hp fun p _ _ => by cases p <;> trivial

theorem SameExcept.nextDraw (h : SameExcept ps s t) (hp : .draws ∈ ps := by simp [writtenParts]) :
    SameExcept ps s t.nextDraw :=
  h.update .draws hp fun p _ _ => by cases p <;> trivial

end Sys2Proof.Machine
end

section
/-! Every instruction completes or raises (30_encoding.md R105): which of the two, and with what, said once for all 35. -/

namespace Sys2Proof.Machine

open Sys2Proof Sys2Proof.Config

/-- The state that an instruction completes with, `none` when it raises: the six instructions with a check of their own,
and exec's answer for all others. -/
def completion (i : Instr) (s : State) : Option State :=
  match i with
  | .ret => popPc s
  | .call nnn => (pushPc s).map fun t => t.setPc (addrWord nnn)
  | .draw x y n => (memRead s.mem (indexAddress s) n.val).map (drawSprite x y s)
  | .loadBinaryCodedDecimal x => (memWrite s.mem (indexAddress s) (decimalDigits (s.readV x))).map s.setMem
  | .loadMemoryRegisters x =>
    (memWrite s.mem (indexAddress s) (registersUpTo s x)).map (blockStored ldstIncrementsI x s)
  | .loadRegistersMemory x => (memRead s.mem (indexAddress s) (x.val + 1)).map (blockLoaded ldstIncrementsI x s)
  | i =>
    match exec i s with
    | .next t => some t
    | .fault _ | .refused _ => none

/-- The error that an instruction's own check raises. -/
def raisedError : Instr → Chip8Error
  | .ret => .stackUnderflow
  | .call _ => .stackOverflow
  | _ => .memoryOutOfRange

/-- The address recorded with it: I for a data access, 0 for the stack errors (R32). -/
def raisedAddress (i : Instr) (s : State) : Nat := if raisedError i = .memoryOutOfRange then indexAddress s else 0

/-- What follows a check may be split off it. -/
theorem completeOrRaise_map {α : Type} (o : Option α) (e : Chip8Error) (i : Instr) (a0 : Nat) (s : State)
    (k : α → State) : completeOrRaise o e i a0 s k = completeOrRaise (o.map k) e i a0 s id := by
  cases o <;> rfl

/-- The tie of `completion` to the model. -/
theorem exec_eq_completeOrRaise (i : Instr) (s : State) :
    exec i s = completeOrRaise (completion i s) (raisedError i) i (raisedAddress i s) s id := by
  cases i with
  | call | draw | loadBinaryCodedDecimal | loadMemoryRegisters | loadRegistersMemory => exact completeOrRaise_map ..
  | _ => rfl

/-- An instruction whose check passes answers its completion. -/
theorem exec_eq_next_of_completion {i : Instr} {s t : State} (h : completion i s = some t) : exec i s = .next t := by
  rw [exec_eq_completeOrRaise, h]; rfl

/-- All that an instruction can answer. -/
theorem exec_cases {i : Instr} {s t : State} (h : exec i s = .next t) :
    completion i s = some t ∨ (completion i s = none ∧ t = raise (raisedError i) i (raisedAddress i s) s) := by
  rw [exec_eq_completeOrRaise] at h
  obtain ⟨u, hsome, heq⟩ | ⟨hnone, heq⟩ :=
    completeOrRaise_cases (completion i s) (raisedError i) i (raisedAddress i s) s id
  · rw [heq] at h
    cases h
    exact .inl hsome
  · rw [heq] at h
    cases h
    exact .inr ⟨hnone, rfl⟩

/-! ### Accesses that complete, and that raise -/

theorem memRead_eq_some_iff {m : Memory} {a n : Nat} {bs : List Byte} :
    memRead m a n = some bs ↔ (n = 0 ∨ a + n ≤ memSize) ∧ bs = m.readBytes a n := by
  obtain ⟨hin, heq⟩ | ⟨hout, heq⟩ := memRead_cases m a n
  · simp [heq, hin, eq_comm]
  · simp [heq, hout]

theorem memRead_eq_none_iff {m : Memory} {a n : Nat} : memRead m a n = none ↔ n ≠ 0 ∧ memSize < a + n := by
  obtain ⟨hin, heq⟩ | ⟨hout, heq⟩ := memRead_cases m a n <;> simp only [heq, reduceCtorEq, true_iff, false_iff] <;> omega

theorem memWrite_eq_none_iff {m : Memory} {a : Nat} {bs : List Byte} :
    memWrite m a bs = none ↔ bs.length ≠ 0 ∧ memSize < a + bs.length := by
  obtain ⟨hin, heq⟩ | ⟨hout, heq⟩ := memWrite_cases m a bs <;>
    simp only [heq, reduceCtorEq, true_iff, false_iff] <;> omega

/-! ### The call stack -/

section CallStack

variable {s : State}

theorem pushPc_of_room (hroom : s.sp.val < stackDepth) : pushPc s =
    some ((s.setStackEntry ⟨s.sp.val, hroom⟩ s.pc).setSp ⟨s.sp.val + 1, Nat.succ_lt_succ hroom⟩) :=
  dif_pos hroom

theorem pushPc_of_full (hfull : s.sp.val = stackDepth) : pushPc s = none := dif_neg (Nat.not_lt.mpr hfull.ge)

theorem popPc_of_pos (hpos : 0 < s.sp.val) : popPc s =
    some ((s.setSp ⟨s.sp.val - 1, Nat.lt_succ_of_lt (popIndex_lt s hpos)⟩).setPc
      (s.readStack ⟨s.sp.val - 1, popIndex_lt s hpos⟩)) :=
  dif_pos hpos

theorem popPc_of_empty (hempty : s.sp.val = 0) : popPc s = none := dif_neg (Nat.not_lt.mpr hempty.le)

end CallStack

/-! ### What is raised -/

/-- FAULT's 17 bits hold every 16-bit address (R37). -/
theorem toNat_faultAddr (a : Word) : (BitVec.ofNat 17 a.toNat).toNat = a.toNat := by
  have := a.isLt
  rw [BitVec.toNat_ofNat]
  omega

/-- A data access that raises is of at most 16 bytes (R57), so it starts less than 16 bytes before the end of memory. -/
theorem indexAddress_of_raised {i : Instr} {s : State} (h : completion i s = none)
    (he : raisedError i = .memoryOutOfRange) : memSize < indexAddress s + 16 := by
  cases i with
  | ret | call => cases he
  | draw x y n =>
    have hraise := memRead_eq_none_iff.mp (Option.map_eq_none_iff.mp h)
    omega
  | loadBinaryCodedDecimal x =>
    have hraise := memWrite_eq_none_iff.mp (Option.map_eq_none_iff.mp h)
    simp only [decimalDigits, List.length_cons, List.length_nil] at hraise
    omega
  | loadMemoryRegisters x =>
    have hraise := memWrite_eq_none_iff.mp (Option.map_eq_none_iff.mp h)
    rw [length_registersUpTo] at hraise
    omega
  | loadRegistersMemory x =>
    have hraise := memRead_eq_none_iff.mp (Option.map_eq_none_iff.mp h)
    omega
  | _ => cases h

end Sys2Proof.Machine
end

section
/-! The invariant: each update of the state keeps it, so a poll, an error and an instruction that completes do. -/

namespace Sys2Proof.Machine

open Sys2Proof Sys2Proof.Config

variable {s t : State}

/-! ### The updates -/

theorem Inv.setV (hs : Inv s) (x : Reg) (b : Byte) : Inv (s.setV x b) := { hs with }
theorem Inv.setVs (hs : Inv s) (v : Vector Byte numV) : Inv (s.setVs v) := { hs with }
theorem Inv.setI (hs : Inv s) (a : Word) : Inv (s.setI a) := { hs with }
theorem Inv.setSp (hs : Inv s) (n : Fin (stackDepth + 1)) : Inv (s.setSp n) := { hs with }
theorem Inv.setDt (hs : Inv s) (b : Byte) : Inv (s.setDt b) := { hs with }
theorem Inv.setSt (hs : Inv s) (b : Byte) : Inv (s.setSt b) := { hs with }
theorem Inv.setDisp (hs : Inv s) (d : Grid displayW displayH) : Inv (s.setDisp d) := { hs with }
theorem Inv.nextDraw (hs : Inv s) : Inv s.nextDraw := { hs with }

theorem Inv.setMem (hs : Inv s) {m : Memory} (hm : m.wf) : Inv (s.setMem m) := { hs with memCanonical := hm }

theorem Inv.setStackEntry (hs : Inv s) (j : Fin stackDepth) {a : Word} (ha : a.toNat ≤ 0x1000) :
    Inv (s.setStackEntry j a) :=
  { hs with
    stackBound := fun l => by
      rw [State.readStack_setStackEntry]
      split
      · exact ha
      · exact hs.stackBound l }

/-- With no error recorded and no key wait pending, PC may be any address up to R25's bound. -/
theorem Inv.setPc (hs : Inv s) (hf : s.fault = none) (hw : s.kwait = none) {a : Word} (ha : a.toNat ≤ 0x10FE) :
    Inv (s.setPc a) :=
  { hs with
    pcBound := ha
    waitingPc := fun hwait => absurd hw hwait
    faultPc := fun r hr => by simp [hf] at hr }

theorem Inv.klatch_eq_none (hs : Inv s) (hw : s.kwait = none) : s.klatch = none := by
  by_contra hlatch
  exact hs.latchWaits hlatch hw

/-- Error entry outside a key wait: the record names PC, an error that a Step raises, and its address. -/
theorem Inv.recordFault (hs : Inv s) (hw : s.kwait = none) {e : Chip8Error} (w : Word) {a0 : Nat}
    (hkind : e ≠ .invalidRegister ∧ e ≠ .programTooLarge)
    (haddr : if e = .memoryOutOfRange then memSize < (BitVec.ofNat 17 a0).toNat + 16 else BitVec.ofNat 17 a0 = 0) :
    Inv (recordFault e s.pc w a0 s) :=
  { hs with
    faultNotWaiting := fun _ => hw
    faultPc := fun r hr => by cases hr; rfl
    faultKind := fun r hr => by cases hr; exact hkind
    faultAddr := fun r hr => by cases hr; exact haddr }

/-! ### The key wait -/

theorem Inv.keyWaitPoll (hs : Inv s) {x : Reg} (hf : s.fault = none) (hw : s.kwait = some x) : Inv (keyWaitPoll x s) := by
  obtain ⟨-, heq⟩ | ⟨k, -, heq⟩ := keyWaitPoll_cases x s <;> rw [heq]
  · exact hs
  · have hpc : s.pc.toNat + 2 ≤ 4096 := hs.waitingPc (by simp [hw])
    have hended : Inv (((s.setV x (BitVec.ofNat 8 k.val)).setKwait none).setKlatch none) :=
      { hs.setV x (BitVec.ofNat 8 k.val) with
        waitingPc := fun hwait => absurd rfl hwait
        latchWaits := fun hlatch => absurd rfl hlatch
        faultNotWaiting := fun _ => rfl }
    refine hended.setPc hf rfl ?_
    simp only [State.setKlatch_pc, State.setKwait_pc, State.setV_pc]
    bv_omega

/-! ### The instructions -/

/-- The state that a cycle dispatches on: no error, no key wait, and PC is A + 2 for a word fetched at A (R102). -/
structure Dispatched (s : State) : Prop where
  inv : Inv s
  noFault : s.fault = none
  notWaiting : s.kwait = none
  afterWord : 2 ≤ s.pc.toNat ∧ s.pc.toNat ≤ 4096

theorem Inv.dispatched_advancePc (hs : Inv s) (hf : s.fault = none) (hw : s.kwait = none)
    (hpc : s.pc.toNat + 2 ≤ 4096) : Dispatched (advancePc s) := by
  have hadvanced : (s.pc + 2#16).toNat = s.pc.toNat + 2 := by bv_omega
  exact ⟨hs.setPc hf hw (by omega), hf, hw, by rw [advancePc_pc, hadvanced]; omega⟩

theorem Dispatched.setPc (hs : Dispatched s) {a : Word} (ha : a.toNat ≤ 0x10FE) : Inv (s.setPc a) :=
  hs.inv.setPc hs.noFault hs.notWaiting ha

theorem Dispatched.skipIf (hs : Dispatched s) (c : Bool) : Inv (skipIf c s) := by
  cases c
  · exact hs.inv
  · have := hs.afterWord
    exact hs.setPc (by bv_omega)

theorem Dispatched.popPc (hs : Dispatched s) (h : popPc s = some t) : Inv t := by
  obtain ⟨hpos, heq⟩ | ⟨-, heq⟩ := popPc_cases s <;> rw [heq] at h <;> cases h
  have hentry := hs.inv.stackBound ⟨s.sp.val - 1, popIndex_lt s hpos⟩
  exact (hs.inv.setSp ⟨s.sp.val - 1, _⟩).setPc hs.noFault hs.notWaiting (hentry.trans (by omega))

theorem Dispatched.call (hs : Dispatched s) {nnn : Addr} (h : completion (.call nnn) s = some t) : Inv t := by
  obtain ⟨u, hpush, rfl⟩ := Option.map_eq_some_iff.mp h
  obtain ⟨hroom, heq⟩ | ⟨-, heq⟩ := pushPc_cases s <;> rw [heq] at hpush <;> cases hpush
  refine ((hs.inv.setStackEntry _ hs.afterWord.2).setSp _).setPc hs.noFault hs.notWaiting ?_
  rw [toNat_addrWord]
  omega

theorem Dispatched.longJump (hs : Dispatched s) (nnn : Addr) (b : Byte) : Inv (s.setPc (addrWord nnn + byteWord b)) := by
  refine hs.setPc ?_
  rw [BitVec.toNat_add, toNat_addrWord, toNat_byteWord]
  omega

theorem Dispatched.loadKey (hs : Dispatched s) (x : Reg) :
    Inv (((s.setKwait (some x)).setKlatch none).setPc (instrAddr s)) := by
  have hpc : (instrAddr s).toNat + 2 = s.pc.toNat := by
    have := hs.afterWord
    simp only [instrAddr]
    bv_omega
  have := hs.afterWord
  exact
    { hs.inv with
      pcBound := show (instrAddr s).toNat ≤ 0x10FE by omega
      waitingPc := fun _ => show (instrAddr s).toNat + 2 ≤ 4096 by omega
      latchWaits := fun hlatch => absurd rfl hlatch
      faultNotWaiting := fun hfault => absurd hs.noFault hfault
      faultPc := fun r hr => by simp [hs.noFault] at hr }

/-- An instruction that completes keeps the invariant: by its updates, each of which does. -/
theorem Dispatched.completion (hs : Dispatched s) {i : Instr} (h : completion i s = some t) : Inv t := by
  cases i with
  | clear => cases h; exact hs.inv.setDisp _
  | ret => exact hs.popPc h
  | sys nnn => cases h; exact hs.inv
  | jump nnn => cases h; exact hs.setPc (by rw [toNat_addrWord]; omega)
  | call nnn => exact hs.call h
  | longJump nnn => cases h; exact hs.longJump ..
  | skipEqualOperand | skipNotEqualOperand | skipEqual | skipNotEqual | skipKeyPressed | skipKeyNotPressed =>
    cases h; exact hs.skipIf _
  | loadOperand | addOperand | load | or | and | xor | loadRegisterDelayTimer => cases h; exact hs.inv.setV ..
  | add | sub | shiftRight | subNegated | shiftLeft => cases h; exact (hs.inv.setV ..).setV ..
  | loadI | addI | loadSprite => cases h; exact hs.inv.setI _
  | random x kk => cases h; exact (hs.inv.setV ..).nextDraw
  | draw x y n =>
    obtain ⟨sprite, -, rfl⟩ := Option.map_eq_some_iff.mp h
    exact (hs.inv.setDisp _).setV ..
  | loadKey x => cases h; exact hs.loadKey x
  | loadDelayTimerRegister x => cases h; exact hs.inv.setDt _
  | loadSoundTimerRegister x => cases h; exact hs.inv.setSt _
  | loadBinaryCodedDecimal x | loadMemoryRegisters x =>
    obtain ⟨m, hwrite, rfl⟩ := Option.map_eq_some_iff.mp h
    exact hs.inv.setMem (memWrite_wf hs.inv.memCanonical hwrite)
  | loadRegistersMemory x =>
    obtain ⟨bs, -, rfl⟩ := Option.map_eq_some_iff.mp h
    exact hs.inv.setVs _

/-! ### The Step -/

theorem raisedError_kind (i : Instr) : raisedError i ≠ .invalidRegister ∧ raisedError i ≠ .programTooLarge := by
  cases i <;> simp [raisedError]

/-- An instruction that raises keeps the invariant. -/
theorem Inv.raise (hs : Inv s) (hw : s.kwait = none) {i : Instr} (h : completion i (advancePc s) = none) :
    Inv (raise (raisedError i) i (raisedAddress i (advancePc s)) (advancePc s)) := by
  rw [raise_advancePc]
  refine hs.recordFault hw _ (raisedError_kind i) ?_
  unfold raisedAddress
  split
  · have hend := indexAddress_of_raised h ‹_›
    rwa [indexAddress, toNat_faultAddr]
  · rfl

theorem Inv.cycle (hs : Inv s) (hf : s.fault = none) (hw : s.kwait = none) (h : cycle s = .next t) : Inv t := by
  obtain ⟨hout, heq⟩ | ⟨-, e, -, heq⟩ | ⟨hin, i, -, heq⟩ := cycle_cases s <;> rw [heq] at h
  case inl =>
    cases h
    exact hs.recordFault hw _ (by simp) (by rw [if_pos rfl, toNat_faultAddr]; omega)
  case inr.inl =>
    cases h
    exact hs.recordFault hw _ (by simp) (by simp)
  case inr.inr =>
    obtain hdone | ⟨hraised, rfl⟩ := exec_cases h
    · exact (hs.dispatched_advancePc hf hw hin).completion hdone
    · exact hs.raise hw hraised

/-- Settles O4: a poll, an error and an instruction that completes each keep the invariant. -/
theorem stepKeepsTheInvariant : Obligations.StepKeepsTheInvariant := by
  unfold Obligations.StepKeepsTheInvariant
  intro s t hs h
  obtain ⟨r, -, heq⟩ | ⟨hf, x, hw, heq⟩ | ⟨hf, hw, heq⟩ := step_cases s <;> rw [heq] at h
  · cases h
  · cases h
    exact hs.keyWaitPoll hf hw
  · exact hs.cycle hf hw h

end Sys2Proof.Machine
end

section
/-! The frame of every instruction, and of an error: what it writes at most, over all 35 (10_state.md, 30_encoding.md R105). -/

namespace Sys2Proof.Machine

open Sys2Proof Sys2Proof.Config

variable {i : Instr} {s t : State}

theorem sameExcept_skipIf (c : Bool) (s : State) : SameExcept [.pc] s (skipIf c s) := by
  cases c
  · exact .refl _ s
  · exact (SameExcept.refl _ s).setPc _

theorem sameExcept_popPc (h : popPc s = some t) : SameExcept [.pc, .sp] s t := by
  obtain ⟨hpos, heq⟩ | ⟨-, heq⟩ := popPc_cases s <;> rw [heq] at h <;> cases h
  exact ((SameExcept.refl _ s).setSp _).setPc _

theorem sameExcept_pushPc (h : pushPc s = some t) : SameExcept [.stack, .sp] s t := by
  obtain ⟨hroom, heq⟩ | ⟨-, heq⟩ := pushPc_cases s <;> rw [heq] at h <;> cases h
  exact ((SameExcept.refl _ s).setStackEntry _ _).setSp _

theorem sameExcept_raise (e : Chip8Error) (i : Instr) (a0 : Nat) (s : State) :
    SameExcept [.pc, .fault] s (raise e i a0 s) :=
  ((SameExcept.refl _ s).setPc _).setFault _

/-- An instruction that completes writes PC and its own parts; the frame is the chain of its updates. -/
theorem sameExcept_completion (h : completion i s = some t) : SameExcept (.pc :: writtenParts i) s t := by
  have hs : SameExcept (.pc :: writtenParts i) s s := .refl _ s
  cases i with
  | clear => cases h; exact hs.setDisp _
  | ret => exact sameExcept_popPc h
  | sys nnn => cases h; exact hs
  | jump | longJump => cases h; exact hs.setPc _
  | call nnn =>
    obtain ⟨u, hpush, rfl⟩ := Option.map_eq_some_iff.mp h
    exact ((sameExcept_pushPc hpush).mono (by simp [writtenParts])).setPc _
  | skipEqualOperand | skipNotEqualOperand | skipEqual | skipNotEqual | skipKeyPressed | skipKeyNotPressed =>
    cases h; exact sameExcept_skipIf _ s
  | loadOperand | addOperand | load | or | and | xor | loadRegisterDelayTimer => cases h; exact hs.setV _ _
  | add | sub | shiftRight | subNegated | shiftLeft => cases h; exact (hs.setV _ _).setV _ _
  | loadI | addI | loadSprite => cases h; exact hs.setI _
  | random x kk => cases h; exact (hs.setV _ _).nextDraw
  | draw x y n =>
    obtain ⟨sprite, -, rfl⟩ := Option.map_eq_some_iff.mp h
    exact (hs.setDisp _).setV _ _
  | loadKey x => cases h; exact ((hs.setKwait _).setKlatch _).setPc _
  | loadDelayTimerRegister x => cases h; exact hs.setDt _
  | loadSoundTimerRegister x => cases h; exact hs.setSt _
  | loadBinaryCodedDecimal | loadMemoryRegisters =>
    obtain ⟨m, -, rfl⟩ := Option.map_eq_some_iff.mp h
    exact hs.setMem m
  | loadRegistersMemory x =>
    obtain ⟨bs, -, rfl⟩ := Option.map_eq_some_iff.mp h
    exact hs.setVs _

theorem fault_of_completion (h : completion i s = some t) : t.fault = s.fault :=
  sameExcept_completion h .fault (by cases i <;> simp [writtenParts])

/-- An instruction completes within its own parts, or raises, which writes PC and FAULT. -/
theorem sameExcept_exec (h : exec i s = .next t) : SameExcept (.pc :: .fault :: writtenParts i) s t := by
  obtain hdone | ⟨-, rfl⟩ := exec_cases h
  · exact (sameExcept_completion hdone).mono (by simp)
  · exact (sameExcept_raise _ i _ s).mono (by simp)

/-- Settles O20, by the frame of each instruction and of an error. -/
theorem instructionsWriteOnlyTheirParts : Obligations.InstructionsWriteOnlyTheirParts := by
  unfold Obligations.InstructionsWriteOnlyTheirParts
  intro s t i h
  exact sameExcept_exec h

/-- An instruction that is no flag writer and has another destination than VF completes with VF as it was. -/
theorem readV_flagReg_completion (hvf : mayWriteVF i = false) (h : completion i s = some t) :
    t.readV 15 = s.readV 15 := by
  by_cases hv : .v ∈ writtenParts i
  case neg => exact sameExcept_completion h .v (by simpa using hv) 15
  case pos =>
    cases i with
    | add | sub | shiftRight | subNegated | shiftLeft | draw => cases hvf
    | loadOperand x | addOperand x | load x | or x | and x | xor x | random x | loadRegisterDelayTimer x =>
      have hx : (15 : Reg) ≠ x := by rintro rfl; cases hvf
      cases h
      exact (State.readV_setV ..).trans (if_neg hx)
    | loadRegistersMemory x =>
      have hx : ¬ (0 ≤ 15 ∧ 15 < 0 + (x.val + 1)) := by
        have hx : x ≠ 15 := by rintro rfl; cases hvf
        have hval : x.val ≠ 15 := fun heq => hx (Fin.ext heq)
        omega
      obtain ⟨bs, hread, rfl⟩ := Option.map_eq_some_iff.mp h
      obtain ⟨-, rfl⟩ := memRead_eq_some_iff.mp hread
      refine (getElem_writeRegisters s.v 0 _ 15).trans (if_neg ?_)
      rwa [Memory.length_readBytes]
    | _ => simp [writtenParts] at hv

/-- Settles O21: by the registers an instruction writes when it completes, and by the frame of an error. -/
theorem onlyFlagWritersAndVFDestinationsChangeVF : Obligations.OnlyFlagWritersAndVFDestinationsChangeVF := by
  unfold Obligations.OnlyFlagWritersAndVFDestinationsChangeVF
  intro s t i h hvf
  obtain hdone | ⟨-, rfl⟩ := exec_cases h
  · exact readV_flagReg_completion hvf hdone
  · exact sameExcept_raise _ i _ s .v (by simp) 15

end Sys2Proof.Machine
end

section
/-! The encoder gives a decoded word back (30_encoding.md R91): the formats of a word's own fields, then the groups of the
decoder (R85). -/

namespace Sys2Proof

variable {w : Word} {i : Instr}

/-! ### The formats (R81) -/

theorem formatA_fields {op : BitVec 4} (hop : w.toNat / 4096 = op.toNat) : formatA op (nnnField w) = w := by
  apply BitVec.eq_of_toNat_eq
  rw [toNat_formatA, toNat_nnnField]
  omega

theorem formatXK_fields {op : BitVec 4} (hop : w.toNat / 4096 = op.toNat) : formatXK op (xField w) (kkField w) = w := by
  apply BitVec.eq_of_toNat_eq
  rw [toNat_formatXK, val_xField, toNat_kkField]
  omega

theorem formatXYN_fields {op n : BitVec 4} (hop : w.toNat / 4096 = op.toNat) (hn : w.toNat % 16 = n.toNat) :
    formatXYN op (xField w) (yField w) n = w := by
  apply BitVec.eq_of_toNat_eq
  rw [toNat_formatXYN, val_xField, val_yField]
  omega

/-! ### The groups that decode their low bits too -/

theorem encode_decodeGroup0 (hop : w.toNat / 4096 = 0x0) : encode (decodeGroup0 w) = w := by
  unfold decodeGroup0
  split
  · exact ‹w = _›.symm
  · split
    · exact ‹w = _›.symm
    · exact formatA_fields hop

theorem toNat_encode_of_decodeGroup8 {x y : Reg} {n : Nat} (h : decodeGroup8 x y n = .ok i) :
    (encode i).toNat = 0x8 * 4096 + x.val * 256 + y.val * 16 + n := by
  unfold decodeGroup8 at h
  split at h <;> cases h <;> exact toNat_formatXYN ..

theorem toNat_encode_of_decodeGroupE {x : Reg} {kk : Nat} (h : decodeGroupE x kk = .ok i) :
    (encode i).toNat = 0xE * 4096 + x.val * 256 + kk := by
  unfold decodeGroupE at h
  split at h <;> cases h <;> exact toNat_formatXK ..

theorem toNat_encode_of_decodeGroupF {x : Reg} {kk : Nat} (h : decodeGroupF x kk = .ok i) :
    (encode i).toNat = 0xF * 4096 + x.val * 256 + kk := by
  unfold decodeGroupF at h
  split at h <;> cases h <;> exact toNat_formatXK ..

/-! ### Every word -/

theorem encode_of_decodeWord (h : decodeWord w = .ok i) : encode i = w := by
  have hw := w.isLt
  unfold decodeWord at h
  split at h <;> rename_i hop
  -- the 0 group
  case h_1 => cases h; exact encode_decodeGroup0 (toNat_opField w ▸ hop)
  -- format A: Jump, Call, LoadI, LongJump
  case h_2 | h_3 | h_11 | h_12 => cases h; exact formatA_fields (toNat_opField w ▸ hop)
  -- format XK: the operand forms and Random
  case h_4 | h_5 | h_7 | h_8 | h_13 => cases h; exact formatXK_fields (toNat_opField w ▸ hop)
  -- format XY with n = 0: SkipEqual, SkipNotEqual
  case h_6 | h_10 =>
    split at h <;> cases h
    have hn : w.toNat % 16 = 0 := by rw [← val_nField, ‹nField w = 0›]; rfl
    exact formatXYN_fields (toNat_opField w ▸ hop) hn
  -- format XYN: Draw
  case h_14 =>
    cases h
    exact formatXYN_fields (toNat_opField w ▸ hop) ((toNat_nibbleBits _).trans (val_nField w)).symm
  -- the 8, E and F groups
  case h_9 =>
    apply BitVec.eq_of_toNat_eq
    rw [toNat_opField] at hop
    rw [toNat_encode_of_decodeGroup8 h, val_xField, val_yField, val_nField]
    omega
  case h_15 =>
    apply BitVec.eq_of_toNat_eq
    rw [toNat_opField] at hop
    rw [toNat_encode_of_decodeGroupE h, val_xField, toNat_kkField]
    omega
  case h_16 =>
    have hop : (opField w).toNat = 0xF := by
      have hlt := (opField w).isLt
      simp only [imp_false] at *
      omega
    apply BitVec.eq_of_toNat_eq
    rw [toNat_opField] at hop
    rw [toNat_encode_of_decodeGroupF h, val_xField, toNat_kkField]
    omega

end Sys2Proof
end

section
/-! Errors are precise (30_encoding.md R105, 60_exceptions.md R264): a fetch, a decoding and an instruction's own check each
record the failing Step and write nothing else. -/

namespace Sys2Proof.Machine

open Sys2Proof Sys2Proof.Config

variable {s t : State} {r : FaultRecord}

/-- `t` differs from `s` in FAULT alone, whose record `r` names the Step that started in `s`. -/
def PreciseError (s t : State) (r : FaultRecord) : Prop :=
  SameExcept [.fault] s t ∧ s.kwait = none ∧ r.pc = s.pc ∧
  r.word = (if s.pc.toNat + 2 ≤ 4096 then opcodeOfBytes (s.readByte s.pc.toNat) (s.readByte (s.pc.toNat + 1)) else 0) ∧
  (r.error = .memoryOutOfRange → r.addr.toNat = s.pc.toNat ∨ r.addr.toNat = s.i.toNat) ∧
  (r.error ≠ .memoryOutOfRange → r.addr = 0)

/-- An error entry is precise when the word is the one at PC, and the address PC or I for a range error and else 0. -/
theorem preciseError_recordFault {e : Chip8Error} {w : Word} {a0 : Nat} (hwait : s.kwait = none)
    (hword : w = if s.pc.toNat + 2 ≤ 4096 then s.mem.wordAt s.pc.toNat else 0)
    (hrange : e = .memoryOutOfRange → a0 = s.pc.toNat ∨ a0 = s.i.toNat) (hother : e ≠ .memoryOutOfRange → a0 = 0)
    (hr : (recordFault e s.pc w a0 s).fault = some r) : PreciseError s (recordFault e s.pc w a0 s) r := by
  cases hr
  refine ⟨(SameExcept.refl _ s).setFault _, hwait, rfl, hword, fun he => ?_, fun he => ?_⟩
  · obtain rfl | rfl := hrange he
    · exact .inl (toNat_faultAddr s.pc)
    · exact .inr (toNat_faultAddr s.i)
  · exact congrArg (BitVec.ofNat 17) (hother he)

/-- What an instruction raises from the cycle is precise: its encoding is the word that was fetched (R91). -/
theorem preciseError_raise {i : Instr} (hwait : s.kwait = none) (hin : s.pc.toNat + 2 ≤ 4096)
    (hdecode : decodeWord (s.mem.wordAt s.pc.toNat) = .ok i)
    (hr : (raise (raisedError i) i (raisedAddress i (advancePc s)) (advancePc s)).fault = some r) :
    PreciseError s (raise (raisedError i) i (raisedAddress i (advancePc s)) (advancePc s)) r := by
  rw [raise_advancePc] at hr ⊢
  refine preciseError_recordFault hwait ?_ (fun he => .inr (if_pos he)) (fun he => if_neg he) hr
  rw [if_pos hin, encode_of_decodeWord hdecode]

theorem preciseError_cycle (hf : s.fault = none) (hwait : s.kwait = none) (h : cycle s = .next t)
    (hr : t.fault = some r) : PreciseError s t r := by
  obtain ⟨hout, heq⟩ | ⟨hin, e, -, heq⟩ | ⟨hin, i, hdecode, heq⟩ := cycle_cases s <;> rw [heq] at h
  case inl =>
    cases h
    exact preciseError_recordFault hwait (if_neg (Nat.not_le.mpr hout)).symm (fun _ => .inl rfl) (by simp) hr
  case inr.inl =>
    cases h
    exact preciseError_recordFault hwait (if_pos hin).symm (by simp) (fun _ => rfl) hr
  case inr.inr =>
    obtain hdone | ⟨-, rfl⟩ := exec_cases h
    · simp [fault_of_completion hdone, hf] at hr
    · exact preciseError_raise hwait hin hdecode hr

theorem keyWaitPoll_fault (x : Reg) (s : State) : (keyWaitPoll x s).fault = s.fault := by
  obtain ⟨-, heq⟩ | ⟨k, -, heq⟩ := keyWaitPoll_cases x s <;> rw [heq]
  rfl

/-- Settles O16: a poll records no error, and a cycle a precise one. -/
theorem errorsArePrecise : Obligations.ErrorsArePrecise := by
  unfold Obligations.ErrorsArePrecise
  intro s t r hf h hr
  obtain ⟨r', hfault, -⟩ | ⟨-, x, -, heq⟩ | ⟨-, hwait, heq⟩ := step_cases s
  · simp [hf] at hfault
  · rw [heq] at h
    cases h
    simp [keyWaitPoll_fault, hf] at hr
  · rw [heq] at h
    exact preciseError_cycle hf hwait h hr

end Sys2Proof.Machine
end

section
/-! Noninterference of ST and of the stale stack entries (10_state.md R27, R29): one Step, seen from two states that differ
there alone. -/

namespace Sys2Proof.Machine

open Sys2Proof Sys2Proof.Config

/-- The state with another ST and another stack, which `g` and `k` give. -/
def State.remap (g : Byte → Byte) (k : Vector Word stackDepth → Vector Word stackDepth) (s : State) : State :=
  { s with st := g s.st, stack := k s.stack }

/-- A stack that agrees with the state's at every entry in use (R27). -/
def UsedEntriesAgree (stack : Vector Word stackDepth) (s : State) : Prop :=
  ∀ j : Fin stackDepth, j.val < s.sp.val → stack[j.val] = s.readStack j

variable {g : Byte → Byte} {k : Vector Word stackDepth → Vector Word stackDepth} {i : Instr} {s t : State}

/-! ### The shared operations -/

theorem skipIf_remap (c : Bool) (s : State) : skipIf c (s.remap g k) = (skipIf c s).remap g k := by cases c <;> rfl

theorem keyWaitPoll_remap (x : Reg) (s : State) : keyWaitPoll x (s.remap g k) = (keyWaitPoll x s).remap g k := by
  have hlatch : (s.remap g k).klatch = s.klatch := rfl
  unfold keyWaitPoll
  rw [hlatch]
  cases s.klatch <;> rfl

theorem keyWaitPoll_stack_sp (x : Reg) (s : State) :
    (keyWaitPoll x s).stack = s.stack ∧ (keyWaitPoll x s).sp = s.sp := by
  obtain ⟨-, heq⟩ | ⟨l, -, heq⟩ := keyWaitPoll_cases x s <;> rw [heq] <;> exact ⟨rfl, rfl⟩

/-- A pop reads an entry in use and no other one. -/
theorem popPc_remap (hused : UsedEntriesAgree (k s.stack) s) : popPc (s.remap g k) = (popPc s).map (State.remap g k) := by
  obtain ⟨hpos, heq⟩ | ⟨hempty, heq⟩ := popPc_cases s <;> rw [heq]
  · have hentry := hused ⟨s.sp.val - 1, popIndex_lt s hpos⟩ (Nat.sub_one_lt_of_lt hpos)
    exact (popPc_of_pos (s := s.remap g k) hpos).trans
      (congrArg (fun a => some (((s.setSp ⟨s.sp.val - 1, _⟩).setPc a).remap g k)) hentry)
  · exact popPc_of_empty hempty

/-- A push reads no entry; on the same stack it leaves the same one. -/
theorem pushPc_remap : pushPc (s.remap g id) = (pushPc s).map (State.remap g id) := by
  obtain ⟨hroom, heq⟩ | ⟨hfull, heq⟩ := pushPc_cases s <;> rw [heq]
  · exact pushPc_of_room (s := s.remap g id) hroom
  · exact pushPc_of_full hfull

/-! ### The instructions -/

/-- But for Fx18 with another ST, and for Call with another stack, an instruction completes alike from both states. -/
theorem completion_remap (hst : .st ∉ writtenParts i ∨ g = id) (hstack : .stack ∉ writtenParts i ∨ k = id)
    (hused : UsedEntriesAgree (k s.stack) s) : completion i (s.remap g k) = (completion i s).map (State.remap g k) := by
  cases i with
  | loadSoundTimerRegister x =>
    obtain hno | rfl := hst
    · simp [writtenParts] at hno
    · rfl
  | ret => exact popPc_remap hused
  | call nnn =>
    obtain hno | rfl := hstack
    · simp [writtenParts] at hno
    · simp only [completion, pushPc_remap, Option.map_map]
      rfl
  | draw | loadBinaryCodedDecimal | loadMemoryRegisters | loadRegistersMemory =>
    simp only [completion, Option.map_map]
    rfl
  | skipEqualOperand | skipNotEqualOperand | skipEqual | skipNotEqual | skipKeyPressed | skipKeyNotPressed =>
    exact congrArg some (skipIf_remap _ s)
  | _ => rfl

theorem exec_remap (hst : .st ∉ writtenParts i ∨ g = id) (hstack : .stack ∉ writtenParts i ∨ k = id)
    (hused : UsedEntriesAgree (k s.stack) s) (h : exec i s = .next t) : exec i (s.remap g k) = .next (t.remap g k) := by
  rw [exec_eq_completeOrRaise, completion_remap hst hstack hused]
  obtain hdone | ⟨hraised, rfl⟩ := exec_cases h
  · rw [hdone]; rfl
  · rw [hraised]; rfl

/-! ### The Step -/

theorem fetchWord_remap (s : State) : fetchWord (s.remap g k) = fetchWord s := rfl

theorem step_eq_of_waiting {x : Reg} (hf : s.fault = none) (hw : s.kwait = some x) :
    step s = .next (keyWaitPoll x s) := by
  simp [step, runStep, hf, hw]

theorem step_eq_cycle (hf : s.fault = none) (hw : s.kwait = none) : step s = cycle s := by
  simp [step, runStep, hf, hw]

/-- A relation `R` between the two next states holds after a Step if every state with the same stack and SP stands in it to
its own remap, and every instruction establishes it. -/
theorem step_remap {R : State → State → Prop}
    (hsame : ∀ u, u.stack = s.stack → u.sp = s.sp → R u (u.remap g k))
    (hexec : ∀ i u, exec i (advancePc s) = .next u → ∃ u', exec i ((advancePc s).remap g k) = .next u' ∧ R u u')
    (h : step s = .next t) : ∃ t', step (s.remap g k) = .next t' ∧ R t t' := by
  obtain ⟨r, -, heq⟩ | ⟨hf, x, hw, heq⟩ | ⟨hf, hw, heq⟩ := step_cases s <;> rw [heq] at h
  case inl => cases h
  case inr.inl =>
    cases h
    have hstep : step (s.remap g k) = .next (keyWaitPoll x (s.remap g k)) := step_eq_of_waiting hf hw
    refine ⟨(keyWaitPoll x s).remap g k, by rw [hstep, keyWaitPoll_remap], hsame _ ?_ ?_⟩
    · exact (keyWaitPoll_stack_sp x s).1
    · exact (keyWaitPoll_stack_sp x s).2
  case inr.inr =>
    have hstep : step (s.remap g k) = cycle (s.remap g k) := step_eq_cycle hf hw
    rw [hstep]
    unfold cycle at h ⊢
    rw [fetchWord_remap]
    split at h
    case h_1 => cases h; exact ⟨_, rfl, hsame _ rfl rfl⟩
    case h_2 =>
      split at h
      · cases h; exact ⟨_, rfl, hsame _ rfl rfl⟩
      · exact hexec _ _ h

/-- Settles O22: no instruction reads ST, and Fx18 alone writes it. -/
theorem soundTimerIsNeverRead : Obligations.SoundTimerIsNeverRead := by
  unfold Obligations.SoundTimerIsNeverRead
  intro s t b h
  have hlift := step_remap (g := fun _ => b) (k := id) (R := fun u u' => ∃ c, u' = u.setSt c)
    (fun u _ _ => ⟨b, rfl⟩) ?instr h
  case instr =>
    intro i u hu
    by_cases hst : .st ∈ writtenParts i
    · cases i with
      | loadSoundTimerRegister x => cases hu; exact ⟨_, rfl, s.readV x, rfl⟩
      | _ => simp [writtenParts] at hst
    · exact ⟨_, exec_remap (.inl hst) (.inr rfl) (fun _ _ => rfl) hu, b, rfl⟩
  obtain ⟨t', hstep, c, rfl⟩ := hlift
  exact ⟨c, hstep⟩

/-- The entry that a push writes agrees, and those below it did. -/
theorem UsedEntriesAgree.push {stale : Vector Word stackDepth} (hused : UsedEntriesAgree stale s)
    (hroom : s.sp.val < stackDepth) (a : Word) :
    UsedEntriesAgree (stale.set s.sp.val a)
      ((s.setStackEntry ⟨s.sp.val, hroom⟩ a).setSp ⟨s.sp.val + 1, Nat.succ_lt_succ hroom⟩) := by
  intro j hj
  rw [State.readStack_setSp, State.readStack_setStackEntry, Vector.getElem_set]
  by_cases htop : s.sp.val = j.val
  · rw [if_pos htop, if_pos (Fin.ext htop.symm)]
  · rw [if_neg htop, if_neg fun heq => htop (congrArg Fin.val heq).symm]
    exact hused j (Nat.lt_of_le_of_ne (Nat.lt_succ_iff.mp hj) (Ne.symm htop))

/-- A Call on a stack that agrees at the entries in use pushes the same address onto it. -/
theorem exec_call_remap {stale : Vector Word stackDepth} {nnn : Addr} (hused : UsedEntriesAgree stale s)
    (h : exec (.call nnn) s = .next t) :
    ∃ after, exec (.call nnn) (s.remap id fun _ => stale) = .next (t.remap id fun _ => after) ∧
      UsedEntriesAgree after t := by
  rw [exec_eq_completeOrRaise] at h ⊢
  simp only [completion] at h ⊢
  obtain ⟨hroom, heq⟩ | ⟨hfull, heq⟩ := pushPc_cases s <;> rw [heq] at h <;> cases h
  · have hpush : pushPc (s.remap id fun _ => stale) = some _ :=
      pushPc_of_room (s := s.remap id fun _ => stale) hroom
    rw [hpush]
    exact ⟨stale.set s.sp.val s.pc, rfl, hused.push hroom s.pc⟩
  · have hpush : pushPc (s.remap id fun _ => stale) = none := pushPc_of_full hfull
    rw [hpush]
    exact ⟨stale, rfl, hused⟩

/-- Only a Call makes the stack deeper. -/
theorem sp_exec_le (hstack : .stack ∉ writtenParts i) (h : exec i s = .next t) : t.sp.val ≤ s.sp.val := by
  by_cases hsp : .sp ∈ writtenParts i
  · cases i with
    | call => simp [writtenParts] at hstack
    | ret =>
      obtain hdone | ⟨-, rfl⟩ := exec_cases h
      · obtain ⟨hpos, heq⟩ | ⟨-, heq⟩ := popPc_cases s <;> cases heq.symm.trans hdone
        exact Nat.sub_le ..
      · exact Nat.le_refl _
    | _ => simp [writtenParts] at hsp
  · have heq : t.sp = s.sp := sameExcept_exec h .sp (by simpa using hsp)
    rw [heq]

/-- An instruction that is no Call leaves the entries in use among those that were. -/
theorem UsedEntriesAgree.exec {stale : Vector Word stackDepth} (hused : UsedEntriesAgree stale s)
    (hstack : .stack ∉ writtenParts i) (h : exec i s = .next t) : UsedEntriesAgree stale t := by
  have hsp := sp_exec_le hstack h
  intro j hj
  rw [hused j (by omega)]
  exact (sameExcept_exec h .stack (by simpa using hstack) j).symm

/-- Settles O23: a pop reads an entry in use, a push writes one above them. -/
theorem staleStackEntriesAreNeverRead : Obligations.StaleStackEntriesAreNeverRead := by
  unfold Obligations.StaleStackEntriesAreNeverRead
  intro s t stale hused h
  have hlift := step_remap (g := id) (k := fun _ => stale)
    (R := fun u u' => ∃ after, u' = u.remap id (fun _ => after) ∧ UsedEntriesAgree after u)
    (fun u hstack hsp => ⟨stale, rfl, ?same⟩) ?instr h
  case same =>
    intro j hj
    rw [hsp] at hj
    exact (hused j hj).trans (congrArg (·[j.val]) hstack.symm)
  case instr =>
    intro i u hu
    by_cases hcall : .stack ∈ writtenParts i
    · cases i with
      | call nnn =>
        obtain ⟨after, hexec, hagree⟩ := exec_call_remap (s := advancePc s) hused hu
        exact ⟨_, hexec, after, rfl, hagree⟩
      | _ => simp [writtenParts] at hcall
    · exact ⟨_, exec_remap (.inr rfl) (.inl hcall) hused hu, stale, rfl,
        UsedEntriesAgree.exec (s := advancePc s) hused hcall hu⟩
  obtain ⟨t', hstep, after, rfl, hagree⟩ := hlift
  exact ⟨after, hstep, hagree⟩

end Sys2Proof.Machine
end

section
/-! Reset, Construct and the canonical form of memory (70_reset_and_hazards.md R290 to R296, 20_memory.md; log 7). -/

namespace Sys2Proof.Machine

open Sys2Proof Sys2Proof.Config

/-! ### The canonical form -/

theorem Memory.read_of_unlisted {m : Memory} {a : Nat} (h : ∀ c ∈ m, c.1 ≠ a) : m.read a = unlistedByte a := by
  induction m with
  | nil => rfl
  | cons c rest ih =>
    rw [Memory.read, if_neg (h c (by simp)), ih fun d hd => h d (by simp [hd])]

theorem Memory.read_cons_self (c : Host.Cell) (rest : Memory) : Memory.read (c :: rest) c.1 = c.2 := if_pos rfl

theorem Memory.read_cons_of_ne {c : Host.Cell} (rest : Memory) {a : Nat} (h : c.1 ≠ a) :
    Memory.read (c :: rest) a = Memory.read rest a := if_neg h

/-- Of two canonical memories that read alike neither starts below the other: the byte at its first address is no
unlisted one. -/
theorem Memory.head_le_of_read_eq {c d : Host.Cell} {m m' : Memory} (hm : Memory.wf (c :: m)) (hm' : Memory.wf (d :: m'))
    (h : ∀ a, Memory.read (c :: m) a = Memory.read (d :: m') a) : d.1 ≤ c.1 := by
  obtain ⟨-, hlisted⟩ := hm
  obtain ⟨hrising', -⟩ := hm'
  by_contra hlt
  have hunlisted : Memory.read (d :: m') c.1 = unlistedByte c.1 := by
    refine Memory.read_of_unlisted fun e he => ?_
    obtain rfl | he := List.mem_cons.mp he
    · omega
    · have := (List.pairwise_cons.mp hrising').1 e he
      omega
  exact (hlisted c (by simp)).2 (by rw [← Memory.read_cons_self c m, h, hunlisted])

theorem Memory.wf_tail {c : Host.Cell} {m : Memory} (hm : Memory.wf (c :: m)) : m.wf :=
  ⟨(List.pairwise_cons.mp hm.1).2, fun e he => hm.2 e (by simp [he])⟩

theorem Memory.read_tail_self {c : Host.Cell} {m : Memory} (hm : Memory.wf (c :: m)) : m.read c.1 = unlistedByte c.1 :=
  Memory.read_of_unlisted fun e he => Nat.ne_of_gt ((List.pairwise_cons.mp hm.1).1 e he)

/-- A canonical memory that reads as reset memory lists nothing. -/
theorem Memory.eq_nil_of_read {m : Memory} (hm : m.wf) (h : ∀ a, m.read a = unlistedByte a) : m = [] := by
  cases m with
  | nil => rfl
  | cons c rest => exact absurd ((Memory.read_cons_self c rest).symm.trans (h c.1)) (hm.2 c (by simp)).2

theorem Memory.eq_of_read_eq {m m' : Memory} (hm : m.wf) (hm' : m'.wf) (h : ∀ a, m.read a = m'.read a) : m = m' := by
  induction m generalizing m' with
  | nil => exact (Memory.eq_nil_of_read hm' fun a => (h a).symm).symm
  | cons c rest ih =>
    cases m' with
    | nil => exact Memory.eq_nil_of_read hm h
    | cons d rest' =>
      have haddr : c.1 = d.1 :=
        Nat.le_antisymm (Memory.head_le_of_read_eq hm' hm fun a => (h a).symm) (Memory.head_le_of_read_eq hm hm' h)
      have hbyte : c.2 = d.2 := by
        rw [← Memory.read_cons_self c rest, h, haddr, Memory.read_cons_self]
      have hrest : ∀ a, Memory.read rest a = Memory.read rest' a := by
        intro a
        by_cases ha : c.1 = a
        · subst ha
          rw [Memory.read_tail_self hm, haddr, Memory.read_tail_self hm']
        · rw [← Memory.read_cons_of_ne rest ha, h, Memory.read_cons_of_ne rest' (haddr ▸ ha)]
      rw [Prod.ext haddr hbyte, ih (Memory.wf_tail hm) (Memory.wf_tail hm') hrest]

/-- Settles O7, by induction on the two lists: the lowest address that reads otherwise than at reset heads both. -/
theorem canonicalMemoryIsItsBytes : Obligations.CanonicalMemoryIsItsBytes := by
  unfold Obligations.CanonicalMemoryIsItsBytes
  intro m m' hm hm' h
  exact Memory.eq_of_read_eq hm hm' h

/-! ### Reset and Construct -/

theorem inv_reset : Inv State.reset where
  memCanonical := Memory.reset_wf
  pcBound := by decide
  stackBound := by decide
  waitingPc := fun h => absurd rfl h
  latchWaits := fun h => absurd rfl h
  faultNotWaiting := fun _ => rfl
  faultPc := fun _ h => by cases h
  faultKind := fun _ h => by cases h
  faultAddr := fun _ h => by cases h

/-- All that Construct can answer with a state (R290, R293). -/
theorem construct_eq_ok {image : Option (List Byte)} {t : State} (h : construct image = .ok t) :
    t = State.reset ∨ ∃ b : List Byte, b.length ≤ memSize - progBase ∧
      t = State.reset.setMem (State.reset.mem.writeBytes progBase b) := by
  cases image with
  | none => cases h; exact .inl rfl
  | some b =>
    by_cases hfits : b.length ≤ memSize - progBase
    · simp only [construct, loadProgram, if_pos hfits] at h
      cases h
      exact .inr ⟨b, hfits, rfl⟩
    · simp only [construct, loadProgram, if_neg hfits] at h
      cases h

/-- Settles O3: reset meets the invariant, and loading an image that fits keeps memory canonical. -/
theorem invariantHoldsAtReset : Obligations.InvariantHoldsAtReset := by
  unfold Obligations.InvariantHoldsAtReset
  refine ⟨inv_reset, fun image t h => ?_⟩
  obtain rfl | ⟨b, hfits, rfl⟩ := construct_eq_ok h
  · exact inv_reset
  · have hend : progBase + b.length ≤ memSize := by
      simp only [memSize, progBase] at hfits ⊢
      omega
    exact inv_reset.setMem (Memory.writeBytes_wf Memory.reset_wf hend)

theorem length_fontBytes : fontBytes.length = 80 := rfl

theorem unlistedByte_eq (a : Nat) : unlistedByte a = fontBytes.getD a 0#8 := if_pos (Nat.zero_le a)

/-- Settles O1: the values of the reset record, memory through the font's bytes. -/
theorem resetLeavesEveryElementAtItsValue : Obligations.ResetLeavesEveryElementAtItsValue := by
  unfold Obligations.ResetLeavesEveryElementAtItsValue
  refine ⟨rfl, ?v, rfl, rfl, ?stack, rfl, rfl, rfl, fun a _ => unlistedByte_eq a, ?zeros, ?disp, ?key, rfl, rfl, rfl⟩
  case v => exact fun x => Vector.getElem_replicate x.isLt
  case stack => exact fun j => Vector.getElem_replicate j.isLt
  case zeros =>
    intro a ha
    exact (unlistedByte_eq a).trans (List.getD_eq_default _ _ (by rw [length_fontBytes]; exact ha))
  case disp => exact getPixel_blankGrid
  case key => exact fun k => Vector.getElem_replicate k.isLt

end Sys2Proof.Machine
end

section
/-! Single instructions and transactions: control flow, the random draw, the block transfers, the keypad and the error
state, each by the frame rules and the rule of its operation. -/

namespace Sys2Proof.Machine

open Sys2Proof Sys2Proof.Config

/-! ### Control flow -/

/-- Settles O32: a push with room, then the jump. -/
theorem callPushesTheReturnAddress : Obligations.CallPushesTheReturnAddress := by
  unfold Obligations.CallPushesTheReturnAddress
  intro s nnn hroom
  have hpush : pushPc s = some _ := pushPc_of_room hroom
  have hdone : completion (.call nnn) s = some _ := congrArg (Option.map _) hpush
  refine ⟨_, exec_eq_next_of_completion hdone, toNat_addrWord nnn, rfl, fun j => ?_,
    (sameExcept_completion hdone).mono (by simp [writtenParts])⟩
  simp [Fin.ext_iff]

/-- Settles O33: a pop with an entry in use. -/
theorem returnPopsIntoPc : Obligations.ReturnPopsIntoPc := by
  unfold Obligations.ReturnPopsIntoPc
  intro s j hj
  have hdone : completion .ret s = some _ := popPc_of_pos (by omega)
  have hindex : s.sp.val - 1 = j.val := by omega
  refine ⟨_, exec_eq_next_of_completion hdone, ?_, hindex, sameExcept_completion hdone⟩
  exact congrArg s.readStack (Fin.ext hindex)

/-- Settles O38: the sum of a 12-bit and an 8-bit number does not reach 2^16. -/
theorem longJumpAddsV0WithoutMasking : Obligations.LongJumpAddsV0WithoutMasking := by
  unfold Obligations.LongJumpAddsV0WithoutMasking
  intro s nnn
  have hsum : (addrWord nnn + byteWord (s.readV 0)).toNat = nnn.toNat + (s.readV 0).toNat := by
    rw [BitVec.toNat_add, toNat_addrWord, toNat_byteWord]
    omega
  refine ⟨_, rfl, hsum, ?_, (SameExcept.refl _ s).setPc _⟩
  have hbound : nnn.toNat + (s.readV 0).toNat ≤ 0x10FE := by omega
  exact hsum ▸ hbound

/-! ### The random draw -/

/-- Settles O46: the draw is one more write of V[x] and one more byte of the stream. -/
theorem randomAndsTheDrawWithTheByte : Obligations.RandomAndsTheDrawWithTheByte := by
  unfold Obligations.RandomAndsTheDrawWithTheByte
  refine ⟨fun s x kk => rfl, fun rand s x kk => ⟨fun k _ => ?_, rfl, fun y hy => ?_, ?_⟩⟩
  · simp [randomWith]
  · simp [randomWith, hy]
  · exact ((SameExcept.refl _ s).setV x _).nextDraw

/-! ### Block transfers -/

theorem toNat_advanceI {s : State} {x : Reg} (h : s.i.toNat + x.val + 1 ≤ 4096) :
    (s.i + BitVec.ofNat 16 (x.val + 1)).toNat = s.i.toNat + x.val + 1 := by
  rw [BitVec.toNat_add, BitVec.toNat_ofNat]
  omega

theorem getD_registersUpTo (s : State) {j x : Reg} (hj : j ≤ x) : (registersUpTo s x).getD j.val 0 = s.readV j := by
  have hlen : j.val < (registersUpTo s x).length := by
    rw [length_registersUpTo]
    exact Nat.lt_succ_of_le hj
  rw [← List.getElem_eq_getD (h := hlen), getElem_registersUpTo]

/-- Settles O49: the bytes that MemWrite leaves, read back one by one. -/
theorem blockStoreWritesV0ToVx : Obligations.BlockStoreWritesV0ToVx := by
  unfold Obligations.BlockStoreWritesV0ToVx
  intro s x hin
  have hend : indexAddress s + (registersUpTo s x).length ≤ memSize := by rw [length_registersUpTo]; exact hin
  have hdone : completion (.loadMemoryRegisters x) s = some _ :=
    congrArg (Option.map _) (memWrite_of_inRange s.mem (.inr hend))
  refine ⟨⟨_, exec_eq_next_of_completion hdone, fun j hj => ?stored, fun a ha => ?outside, ?frame⟩, fun m => ?incremented⟩
  case stored =>
    refine (Memory.read_writeBytes s.mem s.i.toNat _ _).trans ((if_pos ?_).trans ?_)
    · have hval : j.val ≤ x.val := hj
      rw [length_registersUpTo]
      omega
    · rw [Nat.add_sub_cancel_left]; exact getD_registersUpTo s hj
  case outside =>
    refine (Memory.read_writeBytes s.mem s.i.toNat _ _).trans (if_neg ?_)
    rwa [length_registersUpTo]
  case frame => exact (SameExcept.refl _ s).setMem _
  case incremented => exact ⟨toNat_advanceI hin, rfl, ((SameExcept.refl _ s).setMem m).setI _⟩

/-- Settles O50: the bytes that MemRead answers, written to V[0] to V[x]. -/
theorem blockLoadReadsV0ToVx : Obligations.BlockLoadReadsV0ToVx := by
  unfold Obligations.BlockLoadReadsV0ToVx
  intro s x hin
  have hdone : completion (.loadRegistersMemory x) s = some _ :=
    congrArg (Option.map _) (memRead_of_inRange s.mem (n := x.val + 1) (.inr hin))
  refine ⟨⟨_, exec_eq_next_of_completion hdone, fun j hj => ?loaded, fun j hj => ?above, ?frame⟩, fun bs => ?incremented⟩
  case loaded =>
    refine (getElem_writeRegisters s.v 0 _ j).trans ((if_pos ?_).trans ?_)
    · have hval : j.val ≤ x.val := hj
      rw [Memory.length_readBytes]
      omega
    · exact Memory.getD_readBytes s.mem s.i.toNat (x.val + 1) j.val 0 (Nat.lt_succ_of_le hj)
  case above =>
    refine (getElem_writeRegisters s.v 0 _ j).trans (if_neg ?_)
    have hval : x.val < j.val := not_le.mp hj
    rw [Memory.length_readBytes]
    omega
  case frame => exact (SameExcept.refl _ s).setVs _
  case incremented => exact ⟨toNat_advanceI hin, ((SameExcept.refl _ s).setVs _).setI _, fun j => rfl⟩

/-! ### Keypad -/

theorem readKey_keyDown (k : Key) (s : State) (l : Key) :
    (keyDown k s).readKey l = if l = k then .pressed else s.readKey l := by
  obtain ⟨hkey, heq⟩ | ⟨-, -, -, heq⟩ | ⟨-, -, heq⟩ := keyDown_cases k s <;> rw [heq]
  · split
    · rw [‹l = k›, hkey]
    · rfl
  · exact State.readKey_setKey ..
  · exact State.readKey_setKey ..

theorem klatch_keyDown (k : Key) (s : State) : (keyDown k s).klatch =
    if s.readKey k = .released ∧ s.kwait ≠ none ∧ s.klatch = none then some k else s.klatch := by
  obtain ⟨hkey, heq⟩ | ⟨hkey, hwait, hlatch, heq⟩ | ⟨-, hno, heq⟩ := keyDown_cases k s <;> rw [heq]
  · rw [if_neg (by simp [hkey])]
  · rw [if_pos ⟨hkey, hwait, hlatch⟩]; rfl
  · rw [if_neg fun h => hno h.2]; rfl

theorem sameExcept_keyDown (k : Key) (s : State) : SameExcept [.key, .klatch] s (keyDown k s) := by
  have hs : SameExcept [.key, .klatch] s s := .refl _ s
  obtain ⟨-, heq⟩ | ⟨-, -, -, heq⟩ | ⟨-, -, heq⟩ := keyDown_cases k s <;> rw [heq]
  · exact hs
  · exact (hs.setKlatch _).setKey k _
  · exact hs.setKey k _

/-- Settles O55, by the rules of KeyDown and the write of one key. -/
theorem keyTransactionsMoveOneKey : Obligations.KeyTransactionsMoveOneKey := by
  unfold Obligations.KeyTransactionsMoveOneKey
  intro s k
  exact ⟨readKey_keyDown k s, klatch_keyDown k s, sameExcept_keyDown k s, fun l => State.readKey_setKey s k l _,
    (SameExcept.refl _ s).setKey k _⟩

/-- Settles O56: PC is put back to A, which undoes the cycle's advance. -/
theorem loadKeyEntersTheWaitAndHoldsPc : Obligations.LoadKeyEntersTheWaitAndHoldsPc := by
  unfold Obligations.LoadKeyEntersTheWaitAndHoldsPc
  intro s x
  refine ⟨_, rfl, rfl, rfl, instrAddr_advancePc s, ?_⟩
  rw [instrAddr_advancePc]
  exact ((SameExcept.refl [.kwait, .klatch] s).setKwait (some x)).setKlatch none

/-! ### After an error -/

/-- Settles O17: a Step looks at FAULT first, and no other transaction writes it. -/
theorem noStepIsEnabledAfterAnError : Obligations.NoStepIsEnabledAfterAnError := by
  unfold Obligations.NoStepIsEnabledAfterAnError
  intro s r hr
  refine ⟨by simp [step, runStep, hr], fun a ha => ?_⟩
  cases a with
  | step => exact absurd rfl ha
  | tick => exact ⟨_, rfl, hr⟩
  | keyUp k => exact ⟨_, rfl, hr⟩
  | keyDown k => exact ⟨_, rfl, (sameExcept_keyDown k s .fault (by simp)).trans hr⟩

end Sys2Proof.Machine
end

section
/-! The decoder gives an encoded instruction back (30_encoding.md R81, R84, R86): the fields of each format, then the
instructions by format. -/

namespace Sys2Proof

/-! ### The fields of the formats (R81) -/

section Fields

variable (op n : BitVec 4) (x y : Reg) (kk : Byte) (nnn : Addr)

@[simp] theorem opField_formatA : opField (formatA op nnn) = op := by
  apply BitVec.eq_of_toNat_eq
  rw [toNat_opField, toNat_formatA]
  omega

@[simp] theorem nnnField_formatA : nnnField (formatA op nnn) = nnn := by
  apply BitVec.eq_of_toNat_eq
  rw [toNat_nnnField, toNat_formatA]
  omega

@[simp] theorem opField_formatXK : opField (formatXK op x kk) = op := by
  apply BitVec.eq_of_toNat_eq
  rw [toNat_opField, toNat_formatXK]
  omega

@[simp] theorem xField_formatXK : xField (formatXK op x kk) = x := by
  apply Fin.ext
  rw [val_xField, toNat_formatXK]
  omega

@[simp] theorem kkField_formatXK : kkField (formatXK op x kk) = kk := by
  apply BitVec.eq_of_toNat_eq
  rw [toNat_kkField, toNat_formatXK]
  omega

@[simp] theorem opField_formatXYN : opField (formatXYN op x y n) = op := by
  apply BitVec.eq_of_toNat_eq
  rw [toNat_opField, toNat_formatXYN]
  omega

@[simp] theorem xField_formatXYN : xField (formatXYN op x y n) = x := by
  apply Fin.ext
  rw [val_xField, toNat_formatXYN]
  omega

@[simp] theorem yField_formatXYN : yField (formatXYN op x y n) = y := by
  apply Fin.ext
  rw [val_yField, toNat_formatXYN]
  omega

@[simp] theorem nField_formatXYN : nField (formatXYN op x y n) = Fin.ofNat 16 n.toNat := by
  apply Fin.ext
  rw [val_nField, toNat_formatXYN, Fin.val_ofNat]
  omega

end Fields

/-! ### The instructions -/

/-- Of the words of format A in the 0 group only 00E0 and 00EE are not Sys (R86). -/
theorem decodeGroup0_formatA {nnn : Addr} (h : (Instr.sys nnn).wellFormed = true) :
    decodeGroup0 (formatA 0x0#4 nnn) = .sys nnn := by
  obtain ⟨hclear, hret⟩ : nnn ≠ 0x0E0#12 ∧ nnn ≠ 0x0EE#12 := by simpa [Instr.wellFormed] using h
  have hclear' : formatA 0x0#4 nnn ≠ 0x00E0#16 := fun heq =>
    hclear (by rw [← nnnField_formatA 0x0#4 nnn, heq]; rfl)
  have hret' : formatA 0x0#4 nnn ≠ 0x00EE#16 := fun heq =>
    hret (by rw [← nnnField_formatA 0x0#4 nnn, heq]; rfl)
  rw [decodeGroup0, if_neg hclear', if_neg hret', nnnField_formatA]

theorem decodeWord_encode {i : Instr} (h : i.wellFormed = true) : decodeWord (encode i) = .ok i := by
  cases i with
  | clear | ret => rfl
  | sys nnn => simp [encode, decodeWord, decodeGroup0_formatA h]
  -- format A
  | jump | call | loadI | longJump => simp [encode, decodeWord]
  -- format XK
  | skipEqualOperand | skipNotEqualOperand | loadOperand | addOperand | random => simp [encode, decodeWord]
  -- formats XY and XYN
  | skipEqual | skipNotEqual | draw => simp [encode, decodeWord]
  | load | or | and | xor | add | sub | shiftRight | subNegated | shiftLeft => simp [encode, decodeWord, decodeGroup8]
  -- format X
  | skipKeyPressed | skipKeyNotPressed => simp [encode, decodeWord, decodeGroupE]
  | loadRegisterDelayTimer | loadKey | loadDelayTimerRegister | loadSoundTimerRegister | addI | loadSprite
  | loadBinaryCodedDecimal | loadMemoryRegisters | loadRegistersMemory => simp [encode, decodeWord, decodeGroupF]

/-- Settles O9: the bytes of an instruction are its word, whose fields are its operands. -/
theorem decodeOfEncodeIsTheInstruction : Obligations.DecodeOfEncodeIsTheInstruction := by
  unfold Obligations.DecodeOfEncodeIsTheInstruction
  intro i rest h
  rw [decode_encodeBytes_append, decodeWord_encode h]

end Sys2Proof
end

section
/-! Construct's image, and the data accesses through I that complete and that raise (20_memory.md R52 to R65,
70_reset_and_hazards.md R293, R296). -/

namespace Sys2Proof.Machine

open Sys2Proof Sys2Proof.Config

variable {s t : State}

/-! ### Construct (R60) -/

theorem construct_of_fits {b : List Byte} (h : b.length ≤ 3584) :
    construct (some b) = .ok (State.reset.setMem (State.reset.mem.writeBytes progBase b)) := by
  have hload : loadProgram b State.reset.mem = some (State.reset.mem.writeBytes progBase b) := if_pos h
  simp only [construct, hload]

theorem construct_of_tooLarge {b : List Byte} (h : 3584 < b.length) :
    construct (some b) = .error { error := .programTooLarge, imageLength := b.length } := by
  have hload : loadProgram b State.reset.mem = none := if_neg (Nat.not_le.mpr h)
  simp only [construct, hload]

/-- Settles O2: the image read back byte by byte from the memory that Construct writes it to. -/
theorem constructLoadsTheImageOrFails : Obligations.ConstructLoadsTheImageOrFails := by
  unfold Obligations.ConstructLoadsTheImageOrFails
  intro b
  have hread := Memory.read_writeBytes State.reset.mem progBase b
  refine ⟨fun hfits => ⟨_, construct_of_fits hfits, fun j hj => ?image, fun a ha => ?outside, ?frame⟩,
    construct_of_tooLarge⟩
  case image =>
    exact (hread _).trans ((if_pos ⟨Nat.le_add_right _ j, Nat.add_lt_add_left hj _⟩).trans
      (congrArg (b.getD · 0) (Nat.add_sub_cancel_left _ j)))
  case outside => exact (hread a).trans (if_neg ha)
  case frame => exact (SameExcept.refl _ _).setMem _

/-! ### A fetch after a store (R65) -/

/-- A store of bytes that lie inside memory, if the rest `k` of its effect keeps the memory it is given. -/
theorem mem_of_exec_store {i : Instr} {bytes : List Byte} {k : Memory → State}
    (hstore : completion i s = (memWrite s.mem s.i.toNat bytes).map k) (hk : ∀ m, (k m).mem = m)
    (hin : s.i.toNat + bytes.length ≤ memSize) (h : exec i s = .next t) :
    t.mem = s.mem.writeBytes s.i.toNat bytes := by
  rw [memWrite_of_inRange s.mem (.inr hin)] at hstore
  cases (exec_eq_next_of_completion hstore).symm.trans h
  exact hk _

theorem fetchWord_setPc {a : Word} (ha : a.toNat + 2 ≤ memSize) (s : State) :
    fetchWord (s.setPc a) = some (opcodeOfBytes (s.readByte a.toNat) (s.readByte (a.toNat + 1))) := if_pos ha

/-- Settles O8: each byte of the fetched word is read back from the memory that the store wrote. -/
theorem fetchSeesAStore : Obligations.FetchSeesAStore := by
  unfold Obligations.FetchSeesAStore
  intro s t x a bytes ha hin hstore
  have hmem : t.mem = s.mem.writeBytes s.i.toNat bytes := by
    obtain ⟨hexec, rfl⟩ | ⟨hexec, rfl⟩ := hstore
    · exact mem_of_exec_store (k := s.setMem) rfl (fun _ => rfl) hin hexec
    · exact mem_of_exec_store (k := blockStored ldstIncrementsI x s) rfl (fun _ => rfl) hin hexec
  have hread : ∀ c, t.readByte c =
      if s.i.toNat ≤ c ∧ c < s.i.toNat + bytes.length then bytes.getD (c - s.i.toNat) 0 else s.readByte c := by
    intro c
    rw [State.readByte, hmem]
    exact Memory.read_writeBytes s.mem s.i.toNat bytes c
  exact ⟨_, _, fetchWord_setPc ha t, hread _, hread _⟩

/-! ### Accesses that raise (R56, R105) -/

theorem toNat_raisedAddress (i : Instr) (s : State) :
    (BitVec.ofNat 17 (raisedAddress i s)).toNat = raisedAddress i s := by
  unfold raisedAddress
  split
  · exact toNat_faultAddr s.i
  · rfl

/-- An instruction whose check fails records its error, word and address, and leaves the state of before its Step. -/
theorem raisedFrom_of_completion {i : Instr} (h : completion i (advancePc s) = none) :
    ∃ t, exec i (advancePc s) = .next t ∧ RaisedFrom s (raisedError i) (encode i) (raisedAddress i s) t := by
  have hexec : exec i (advancePc s) = .next (raise (raisedError i) i (raisedAddress i s) (advancePc s)) := by
    rw [exec_eq_completeOrRaise, h]
    rfl
  rw [raise_advancePc] at hexec
  exact ⟨_, hexec, ⟨_, rfl, rfl, rfl, rfl, toNat_raisedAddress i s⟩, (SameExcept.refl _ s).setFault _⟩

/-- Settles O52: in each of the four instructions the range check fails. -/
theorem outOfRangeAccessesRaiseAtI : Obligations.OutOfRangeAccessesRaiseAtI := by
  unfold Obligations.OutOfRangeAccessesRaiseAtI
  intro s x y n
  refine ⟨fun hn hout => ?draw, fun hout => ?digits, fun hout => ?store, fun hout => ?load⟩
  case draw =>
    exact raisedFrom_of_completion (i := .draw x y n) (Option.map_eq_none_iff.mpr (memRead_of_outOfRange _ hn hout))
  case digits =>
    have hraise : memWrite s.mem s.i.toNat (decimalDigits (s.readV x)) = none :=
      memWrite_of_outOfRange _ (Nat.succ_pos 2) hout
    exact raisedFrom_of_completion (i := .loadBinaryCodedDecimal x) (Option.map_eq_none_iff.mpr hraise)
  case store =>
    have hraise : memWrite s.mem s.i.toNat (registersUpTo s x) = none := by
      rw [memWrite_eq_none_iff, length_registersUpTo]
      exact ⟨Nat.succ_ne_zero _, hout⟩
    exact raisedFrom_of_completion (i := .loadMemoryRegisters x) (Option.map_eq_none_iff.mpr hraise)
  case load =>
    have hraise : memRead s.mem s.i.toNat (x.val + 1) = none := memRead_of_outOfRange _ (Nat.succ_pos _) hout
    exact raisedFrom_of_completion (i := .loadRegistersMemory x) (Option.map_eq_none_iff.mpr hraise)

end Sys2Proof.Machine
end

section
/-! Lists of the host's transactions (30_encoding.md R107, 60_exceptions.md R267): each transaction keeps the invariant,
so every list does. -/

namespace Sys2Proof.Machine

open Sys2Proof Sys2Proof.Config

variable {s t : State} {ts : List Transaction}

/-! ### The updates of the keypad -/

theorem Inv.setKey (hs : Inv s) (k : Key) (c : KeyState) : Inv (s.setKey k c) := { hs with }

/-- A key is latched during a key wait only (R31). -/
theorem Inv.setKlatch (hs : Inv s) (hwait : s.kwait ≠ none) (o : Option Key) : Inv (s.setKlatch o) :=
  { hs with latchWaits := fun _ => hwait }

theorem Inv.keyDown (hs : Inv s) (k : Key) : Inv (keyDown k s) := by
  obtain ⟨-, heq⟩ | ⟨-, hwait, -, heq⟩ | ⟨-, -, heq⟩ := keyDown_cases k s <;> rw [heq]
  · exact hs
  · exact (hs.setKlatch hwait _).setKey k _
  · exact hs.setKey k _

/-! ### The transactions -/

theorem Inv.transact (hs : Inv s) {a : Transaction} (h : transact a s = .next t) : Inv t := by
  cases a with
  | step => exact stepKeepsTheInvariant s t hs h
  | tick => cases h; exact (hs.setDt _).setSt _
  | keyDown k => cases h; exact hs.keyDown k
  | keyUp k => cases h; exact hs.setKey k _

/-- A transaction that answers a state hands it to the rest of the list. -/
theorem runTransactions_cons_of_next {a : Transaction} (h : transact a s = .next t) :
    runTransactions (a :: ts) s = runTransactions ts t := by
  rw [runTransactions, h]

/-- A list runs through exactly when its first transaction does and the rest does from there. -/
theorem runTransactions_cons_eq_next_iff {a : Transaction} :
    runTransactions (a :: ts) s = .next t ↔ ∃ u, transact a s = .next u ∧ runTransactions ts u = .next t := by
  cases h : transact a s <;> simp [runTransactions, h]

/-- Settles O5, by induction on the list: every transaction keeps the invariant. -/
theorem transactionsKeepTheInvariant : Obligations.TransactionsKeepTheInvariant := by
  unfold Obligations.TransactionsKeepTheInvariant
  intro ts
  induction ts with
  | nil => intro s t hs h; cases h; exact hs
  | cons a ts ih =>
    intro s t hs h
    obtain ⟨u, hfirst, hrest⟩ := runTransactions_cons_eq_next_iff.mp h
    exact ih u t (hs.transact hfirst) hrest

end Sys2Proof.Machine
end

section
/-! Decoding against the opcode map (30_encoding.md R84 to R91): the illegal words group by group, the fixed bits of a
word by row, and the row that a decoded word fits. -/

namespace Sys2Proof

variable {w : Word} {i j : Instr}

/-- `sys 0x0E0` and `sys 0x0EE` are decoded from no word: the words they encode to are Clear and Return (R86). -/
theorem wellFormed_of_decodeWord (h : decodeWord w = .ok i) : i.wellFormed = true := by
  cases i with
  | sys nnn =>
    rw [← encode_of_decodeWord h] at h
    have hclear : nnn ≠ 0x0E0#12 := by rintro rfl; cases h
    have hret : nnn ≠ 0x0EE#12 := by rintro rfl; cases h
    simp [Instr.wellFormed, hclear, hret]
  | _ => rfl

/-- Settles O10, by the encoder on the fields of a word, and by the two words that Sys does not cover. -/
theorem encodeOfDecodeIsTheWord : Obligations.EncodeOfDecodeIsTheWord := by
  unfold Obligations.EncodeOfDecodeIsTheWord
  intro w i h
  exact ⟨encode_of_decodeWord h, wellFormed_of_decodeWord h⟩

/-! ### Illegal words (R87) -/

theorem decodeGroup8_eq_error_iff {x y : Reg} {n : Nat} (hn : n < 16) :
    decodeGroup8 x y n = .error .unknownInstruction ↔ n ∈ [0x8, 0x9, 0xA, 0xB, 0xC, 0xD, 0xF] := by
  interval_cases n <;> simp [decodeGroup8]

theorem decodeGroupE_eq_error_iff {x : Reg} {kk : Nat} :
    decodeGroupE x kk = .error .unknownInstruction ↔ kk ∉ [0x9E, 0xA1] := by
  unfold decodeGroupE
  split <;> simp_all

theorem decodeGroupF_eq_error_iff {x : Reg} {kk : Nat} : decodeGroupF x kk = .error .unknownInstruction ↔
    kk ∉ [0x07, 0x0A, 0x15, 0x18, 0x1E, 0x29, 0x33, 0x55, 0x65] := by
  unfold decodeGroupF
  split <;> simp_all

/-- Settles O11: the top nibble picks the group, and three groups and the two rows with n = 0 look further. -/
theorem illegalWordsAreExactlyTheListedGroups : Obligations.IllegalWordsAreExactlyTheListedGroups := by
  unfold Obligations.IllegalWordsAreExactlyTheListedGroups
  intro w
  have hn : nField w = 0 ↔ w.toNat % 16 = 0 := by rw [← val_nField, Fin.ext_iff]; rfl
  unfold decodeWord
  split <;> rename_i hop <;> rw [toNat_opField] at hop
  -- the two rows with n = 0
  case h_6 | h_10 => simp [hop, hn]
  -- the 8, E and F groups
  case h_9 =>
    rw [val_nField, decodeGroup8_eq_error_iff (Nat.mod_lt _ (Nat.succ_pos 15))]
    simp [hop]
  case h_15 =>
    rw [toNat_kkField, decodeGroupE_eq_error_iff]
    simp [hop]
  case h_16 =>
    have hop : w.toNat / 4096 = 0xF := by
      have hlt : w.toNat / 4096 < 16 := by omega
      simp only [imp_false, toNat_opField] at *
      omega
    rw [toNat_kkField, decodeGroupF_eq_error_iff]
    simp [hop]
  -- every word of the other groups is legal
  all_goals simp [hop]

/-! ### The rows of the opcode map (R84) -/

section Rows

open Laws.EncodesTableRow

/-- The word `w` has the fixed bits of the row that `j` belongs to. -/
def FitsRow (w : Word) (j : Instr) : Prop := w &&& (opcodeRow j).2 = (opcodeRow j).1

theorem fitsRow_encode (i : Instr) : FitsRow (encode i) i := by
  cases i with
  | clear | ret => rfl
  | sys | jump | call | loadI | longJump => exact (formatA_mask ..).trans rfl
  | skipEqualOperand | skipNotEqualOperand | loadOperand | addOperand | random => exact (formatXK_mask ..).trans rfl
  | skipEqual | skipNotEqual | load | or | and | xor | add | sub | shiftRight | subNegated | shiftLeft =>
    exact (formatXY_mask ..).trans rfl
  | draw => exact (formatXYN_mask ..).trans rfl
  | skipKeyPressed | skipKeyNotPressed | loadRegisterDelayTimer | loadKey | loadDelayTimerRegister
  | loadSoundTimerRegister | addI | loadSprite | loadBinaryCodedDecimal | loadMemoryRegisters | loadRegistersMemory =>
    exact (formatX_mask ..).trans rfl

end Rows

/-! A field that a mask keeps whole is the row's own. -/

theorem toNat_opField_of_mask {m r : Word} (h : w &&& m = r) (hm : opField m = 0xF#4) :
    (opField w).toNat = (opField r).toNat := by
  have hand : opField (w &&& m) = opField w &&& opField m := BitVec.extractLsb'_and
  rw [← h, hand, hm]
  exact congrArg _ (BitVec.and_allOnes).symm

theorem nField_of_mask {m r : Word} (h : w &&& m = r) (hm : m.extractLsb' 0 4 = 0xF#4) : nField w = nField r := by
  rw [← h, nField, nField, BitVec.extractLsb'_and, hm]
  exact congrArg (fun b : BitVec 4 => Fin.ofNat 16 b.toNat) (BitVec.and_allOnes).symm

theorem kkField_of_mask {m r : Word} (h : w &&& m = r) (hm : kkField m = 0xFF#8) : kkField w = kkField r := by
  have hand : kkField (w &&& m) = kkField w &&& kkField m := BitVec.extractLsb'_and
  rw [← h, hand, hm]
  exact (BitVec.and_allOnes).symm

/-- A word that fits the row of an instruction other than Sys decodes to an instruction of that row: each mask keeps the
top nibble, and the low nibble or the low byte where the group looks at it. -/
theorem exists_decodeWord_of_fitsRow (h : FitsRow w j) (hsys : ∀ nnn, j ≠ .sys nnn) :
    ∃ i, decodeWord w = .ok i ∧ opcodeRow i = opcodeRow j := by
  unfold FitsRow at h
  unfold decodeWord
  cases j <;> simp only [opcodeRow] at h ⊢ <;> rw [toNat_opField_of_mask h rfl]
  case sys nnn => exact absurd rfl (hsys nnn)
  case clear | ret =>
    obtain rfl : w = _ := (BitVec.and_allOnes).symm.trans h
    exact ⟨_, rfl, rfl⟩
  case jump | call | loadI | longJump => exact ⟨_, rfl, rfl⟩
  case skipEqualOperand | skipNotEqualOperand | loadOperand | addOperand | random | draw => exact ⟨_, rfl, rfl⟩
  case skipEqual | skipNotEqual => exact ⟨_, if_pos (nField_of_mask h rfl), rfl⟩
  case load | or | and | xor | add | sub | shiftRight | subNegated | shiftLeft =>
    rw [nField_of_mask h rfl]
    exact ⟨_, rfl, rfl⟩
  -- the E and F groups
  all_goals
    rw [kkField_of_mask h rfl]
    exact ⟨_, rfl, rfl⟩

/-- A word that fits the row of Sys decodes to an instruction of that row, but for the two exact words (R86). -/
theorem decodeWord_of_fitsRow_sys {nnn : Addr} (h : FitsRow w (.sys nnn)) :
    decodeWord w = .ok (.sys (nnnField w)) ∨ w = 0x00E0#16 ∨ w = 0x00EE#16 := by
  rw [or_iff_not_imp_right, not_or]
  rintro ⟨hclear, hret⟩
  rw [decodeWord, toNat_opField_of_mask (m := 0xF000#16) (r := 0x0000#16) h rfl]
  exact congrArg Except.ok ((if_neg hclear).trans (if_neg hret))

/-- Settles O12: the word fits its row as the encoding of its instruction, and a row that it fits is the one it decodes
to. -/
theorem decodedWordFitsOneRow : Obligations.DecodedWordFitsOneRow := by
  unfold Obligations.DecodedWordFitsOneRow
  intro w i h
  refine ⟨encode_of_decodeWord h ▸ fitsRow_encode i, fun j hj => ?_⟩
  by_cases hsys : ∃ nnn, j = .sys nnn
  case pos =>
    obtain ⟨nnn, rfl⟩ := hsys
    obtain hdecode | hexact := decodeWord_of_fitsRow_sys hj
    · cases h.symm.trans hdecode
      exact .inl rfl
    · exact .inr ⟨⟨nnn, rfl⟩, hexact⟩
  case neg =>
    obtain ⟨i', hdecode, hrow⟩ := exists_decodeWord_of_fitsRow hj (not_exists.mp hsys)
    cases h.symm.trans hdecode
    exact .inl hrow.symm

/-- Settles O13, by evaluation. -/
theorem wordsWrittenFromTheTableDecode : Obligations.WordsWrittenFromTheTableDecode := by
  unfold Obligations.WordsWrittenFromTheTableDecode
  decide

end Sys2Proof
end

section
/-! The Step (30_encoding.md R100 to R106): an enabled Step answers a state, be it the decoded instruction's, an error's
or a poll's, and what the poll of a key wait answers. -/

namespace Sys2Proof.Machine

open Sys2Proof Sys2Proof.Config

variable {s t : State}

/-! ### The cycle -/

theorem cycle_of_fetch_outside (h : memSize < s.pc.toNat + 2) :
    cycle s = .next (recordFault .memoryOutOfRange s.pc 0#16 s.pc.toNat s) := by
  obtain ⟨-, heq⟩ | ⟨hin, -⟩ | ⟨hin, -⟩ := cycle_cases s
  · exact heq
  · omega
  · omega

theorem cycle_of_decode_error {e : DecodeError} (hin : s.pc.toNat + 2 ≤ memSize)
    (h : decodeWord (s.mem.wordAt s.pc.toNat) = .error e) :
    cycle s = .next (recordFault .unknownInstruction s.pc (s.mem.wordAt s.pc.toNat) 0 s) := by
  obtain ⟨hout, -⟩ | ⟨-, -, -, heq⟩ | ⟨-, i, hok, -⟩ := cycle_cases s
  · omega
  · exact heq
  · cases h.symm.trans hok

theorem cycle_of_decode_ok {i : Instr} (hin : s.pc.toNat + 2 ≤ memSize)
    (h : decodeWord (s.mem.wordAt s.pc.toNat) = .ok i) : cycle s = exec i (advancePc s) := by
  obtain ⟨hout, -⟩ | ⟨-, e, herr, -⟩ | ⟨-, j, hok, heq⟩ := cycle_cases s
  · omega
  · cases h.symm.trans herr
  · cases h.symm.trans hok
    exact heq

theorem decode_cons_cons_eq_ok_iff {hi lo : Byte} {rest : List Byte} {i : Instr} :
    decode (hi :: lo :: rest) = .ok (i, rest) ↔ decodeWord (opcodeOfBytes hi lo) = .ok i := by
  cases h : decodeWord (opcodeOfBytes hi lo) <;> simp [decode, h]

/-- Settles O14: the bytes that decode are the fetched word's. -/
theorem stepRunsTheDecodedInstruction : Obligations.StepRunsTheDecodedInstruction := by
  unfold Obligations.StepRunsTheDecodedInstruction
  intro s i rest hf hw hin h
  rw [step_eq_cycle hf hw]
  exact cycle_of_decode_ok hin (decode_cons_cons_eq_ok_iff.mp h)

/-- An error entry with PC's own value and an address that FAULT's 17 bits hold writes FAULT alone. -/
theorem raisedFrom_recordFault (e : Chip8Error) (w : Word) {a0 : Nat} (ha : (BitVec.ofNat 17 a0).toNat = a0) :
    RaisedFrom s e w a0 (recordFault e s.pc w a0 s) :=
  ⟨⟨_, rfl, rfl, rfl, rfl, ha⟩, (SameExcept.refl _ s).setFault _⟩

/-- Settles O15: the two error entries of the cycle. -/
theorem failedFetchOrDecodeRecordsTheError : Obligations.FailedFetchOrDecodeRecordsTheError := by
  unfold Obligations.FailedFetchOrDecodeRecordsTheError
  intro s hf hw
  rw [step_eq_cycle hf hw]
  exact ⟨fun hout => ⟨_, cycle_of_fetch_outside hout, raisedFrom_recordFault _ _ (toNat_faultAddr s.pc)⟩,
    fun hin h => ⟨_, cycle_of_decode_error hin h, raisedFrom_recordFault _ _ rfl⟩⟩

/-- An instruction completes or raises, and either way answers a state. -/
theorem exists_exec_eq_next (i : Instr) (s : State) : ∃ t, exec i s = .next t := by
  rw [exec_eq_completeOrRaise]
  cases completion i s <;> exact ⟨_, rfl⟩

/-- Settles O18: a poll and an error answer a state, and so does every instruction. -/
theorem everyEnabledStepAnswersAState : Obligations.EveryEnabledStepAnswersAState := by
  unfold Obligations.EveryEnabledStepAnswersAState
  intro s hf
  obtain ⟨r, hfault, -⟩ | ⟨-, x, -, heq⟩ | ⟨-, -, heq⟩ := step_cases s
  · simp [hf] at hfault
  · exact ⟨_, heq⟩
  · rw [heq]
    obtain ⟨-, heq⟩ | ⟨-, e, -, heq⟩ | ⟨-, i, -, heq⟩ := cycle_cases s <;> rw [heq]
    · exact ⟨_, rfl⟩
    · exact ⟨_, rfl⟩
    · exact exists_exec_eq_next i _

/-- Settles O35: the push on a full stack and the pop of an empty one fail. -/
theorem stackErrorsLeaveTheState : Obligations.StackErrorsLeaveTheState := by
  unfold Obligations.StackErrorsLeaveTheState
  intro s nnn
  refine ⟨fun hfull => ?call, fun hempty => ?ret⟩
  case call => exact raisedFrom_of_completion (i := .call nnn) (Option.map_eq_none_iff.mpr (pushPc_of_full hfull))
  case ret => exact raisedFrom_of_completion (i := .ret) (popPc_of_empty hempty)

/-! ### The key wait (R100, R236) -/

theorem keyWaitPoll_of_latched {k : Key} (x : Reg) (hlatch : s.klatch = some k) :
    keyWaitPoll x s = advancePc (((s.setV x (BitVec.ofNat 8 k.val)).setKwait none).setKlatch none) := by
  simp only [keyWaitPoll, hlatch]

theorem keyWaitPoll_of_unlatched (x : Reg) (hlatch : s.klatch = none) : keyWaitPoll x s = s := by
  simp only [keyWaitPoll, hlatch]

/-- Settles O57, by the two answers of the poll. -/
theorem keyWaitPollConsumesALatchedKey : Obligations.KeyWaitPollConsumesALatchedKey := by
  unfold Obligations.KeyWaitPollConsumesALatchedKey
  intro s x hf hw
  rw [step_eq_of_waiting hf hw]
  refine ⟨fun hlatch => ?unlatched, fun k hlatch => ?latched⟩
  case unlatched =>
    rw [keyWaitPoll_of_unlatched x hlatch]
    exact ⟨s, rfl, .refl _ s⟩
  case latched =>
    rw [keyWaitPoll_of_latched x hlatch]
    refine ⟨_, rfl, ?key, rfl, rfl, rfl, fun y hy => ?others, ?frame⟩
    case key =>
      have := k.isLt
      simp
      omega
    case others => simp [hy]
    case frame => exact ((((SameExcept.refl _ s).setV _ _).setKwait _).setKlatch _).setPc _

/-- While a key is latched, a transaction other than a Step moves only the timers and the keys. -/
theorem sameExcept_transact_of_latched {a : Transaction} (ha : a ≠ .step) (hlatch : t.klatch ≠ none)
    (h : SameExcept [.dt, .st, .key] s t) :
    ∃ u, transact a t = .next u ∧ u.klatch = t.klatch ∧ SameExcept [.dt, .st, .key] s u := by
  cases a with
  | step => exact absurd rfl ha
  | tick => exact ⟨_, rfl, rfl, (h.setDt _).setSt _⟩
  | keyUp k => exact ⟨_, rfl, rfl, h.setKey k _⟩
  | keyDown k =>
    obtain ⟨-, heq⟩ | ⟨-, -, hnone, -⟩ | ⟨-, -, heq⟩ := keyDown_cases k t
    · exact ⟨t, congrArg Host.Outcome.next heq, rfl, h⟩
    · exact absurd hnone hlatch
    · exact ⟨_, congrArg Host.Outcome.next heq, rfl, h.setKey k _⟩

/-- The same for a list of them; `t` is where the list has come to. -/
theorem runTransactions_of_latched {ts : List Transaction} (hts : .step ∉ ts) (hlatch : t.klatch ≠ none)
    (h : SameExcept [.dt, .st, .key] s t) : ∃ u, runTransactions ts t = .next u ∧ SameExcept [.dt, .st, .key] s u := by
  induction ts generalizing t with
  | nil => exact ⟨t, rfl, h⟩
  | cons a ts ih =>
    obtain ⟨ha, hts⟩ := List.ne_and_not_mem_of_not_mem_cons hts
    obtain ⟨u, hfirst, hkept, hframe⟩ := sameExcept_transact_of_latched ha.symm hlatch h
    rw [runTransactions_cons_of_next hfirst]
    exact ih hts (hkept ▸ hlatch) hframe

/-- Settles O59: the list leaves the wait, the latched key and the registers, and the Step after it is the poll. -/
theorem theFirstLatchedKeyIsTheOneWritten : Obligations.TheFirstLatchedKeyIsTheOneWritten := by
  unfold Obligations.TheFirstLatchedKeyIsTheOneWritten
  intro ts s x k hf hw hlatch hts
  obtain ⟨u, hrun, hframe⟩ := runTransactions_of_latched hts (by simp [hlatch]) (.refl _ s)
  obtain ⟨-, hpoll⟩ := keyWaitPollConsumesALatchedKey u x ((hframe .fault (by simp)).trans hf)
    ((hframe .kwait (by simp)).trans hw)
  obtain ⟨t, hstep, hkey, hwait, hlatch, hpc, hothers, -⟩ := hpoll k ((hframe .klatch (by simp)).trans hlatch)
  refine ⟨t, ?_, hkey, hwait, hlatch, hpc.trans ?_, fun y hy => (hothers y hy).trans (hframe .v (by simp) y)⟩
  · rw [runTransactions_append, hrun]
    exact runTransactions_cons_of_next hstep
  · exact congrArg (· + 2) (hframe .pc (by simp))

end Sys2Proof.Machine
end

section
/-! The sprite renderer (40_display.md R124 to R128): the loops toggle each pixel once per 1 bit over it, on a grid of any
size; on one that a sprite cannot lap, at most once. -/

namespace Sys2Proof.Machine

open Sys2Proof Sys2Proof.Config

variable {w h : Nat}

/-! ### Pixels toggled a number of times -/

/-- A pixel toggled `k` times, `on` or off at first, was turned off by one of the toggles (R127). -/
def TurnedOff (on : Bool) (k : Nat) : Prop := (on = true ∧ 1 ≤ k) ∨ 2 ≤ k

/-- One toggle more turns the pixel off if it is on by then. -/
theorem turnedOff_succ (on : Bool) (k : Nat) :
    TurnedOff on (k + 1) ↔ TurnedOff on k ∨ (on ^^ decide (k % 2 = 1)) = true := by
  unfold TurnedOff
  cases on <;> simp <;> omega

/-- What the loops of R125 have come to, (DISP, collide) = `acc`, once pixel (X, Y) of `d` has been toggled `k X Y` times. -/
structure ToggledBy (d : Grid w h) (k : Nat → Nat → Nat) (acc : Grid w h × Bool) : Prop where
  pixel : ∀ (X : Fin w) (Y : Fin h), getPixel acc.1 X Y = (getPixel d X Y ^^ decide (k X Y % 2 = 1))
  collide : acc.2 = true ↔ ∃ (X : Fin w) (Y : Fin h), TurnedOff (getPixel d X Y) (k X Y)

variable {d : Grid w h} {k : Nat → Nat → Nat} {acc : Grid w h × Bool}

theorem toggledBy_zero (d : Grid w h) : ToggledBy d (fun _ _ => 0) (d, false) where
  pixel X Y := by simp
  collide := by simp [TurnedOff]

theorem ToggledBy.changed_iff (hd : ToggledBy d k acc) (X : Fin w) (Y : Fin h) :
    getPixel acc.1 X Y ≠ getPixel d X Y ↔ k X Y % 2 = 1 := by
  rw [hd.pixel]
  cases getPixel d X Y <;> simp

/-- One toggle more, with its collision check. -/
theorem ToggledBy.toggle (hd : ToggledBy d k acc) (X₀ : Fin w) (Y₀ : Fin h) :
    ToggledBy d (fun X Y => k X Y + if X = X₀.val ∧ Y = Y₀.val then 1 else 0)
      (togglePixel acc.1 X₀ Y₀, acc.2 || getPixel acc.1 X₀ Y₀) where
  pixel X Y := by
    rw [getPixel_togglePixel, hd.pixel, hd.pixel]
    simp only [← Fin.ext_iff]
    split
    case isTrue heq =>
      obtain ⟨rfl, rfl⟩ := heq
      rw [← Bool.xor_not, ← decide_not]
      exact congrArg _ (decide_eq_decide.mpr (by omega))
    case isFalse => rfl
  collide := by
    have hat : ∀ (X : Fin w) (Y : Fin h),
        TurnedOff (getPixel d X Y) (k X Y + if X.val = X₀.val ∧ Y.val = Y₀.val then 1 else 0) ↔
          TurnedOff (getPixel d X Y) (k X Y) ∨ (X = X₀ ∧ Y = Y₀ ∧ getPixel acc.1 X₀ Y₀ = true) := by
      intro X Y
      by_cases heq : X = X₀ ∧ Y = Y₀
      · obtain ⟨rfl, rfl⟩ := heq
        simp [turnedOff_succ, hd.pixel]
      · have hval : ¬ (X.val = X₀.val ∧ Y.val = Y₀.val) := by rwa [← Fin.ext_iff, ← Fin.ext_iff]
        rw [if_neg hval, Nat.add_zero, ← and_assoc]
        simp [heq]
    simp [hat, exists_or, hd.collide]

/-! ### The loops -/

section Loops

variable [NeZero w] [NeZero h] {vx vy r : Nat}

/-- Bit 7 - c of row `r` lies over pixel (X, Y), as `coverCount` counts them. -/
def bitOver (w h vx vy r : Nat) (bits : Byte) (X Y c : Nat) : Bool :=
  bits.getLsbD (7 - c) && X == (vx + c) % w && Y == (vy + r) % h

theorem ToggledBy.drawPixel (hd : ToggledBy d k acc) (bits : Byte) (c : Nat) :
    ToggledBy d (fun X Y => k X Y + if bitOver w h vx vy r bits X Y c then 1 else 0)
      (drawPixel (vx % w) (vy % h) r bits acc c) := by
  obtain ⟨hbit, heq⟩ | ⟨hbit, heq⟩ := drawPixel_cases (vx % w) (vy % h) r bits acc c
  all_goals
    rw [heq]
    rw [spritePixel] at hbit
  · simpa [bitOver, hbit] using hd
  · simpa [bitOver, hbit] using hd.toggle (Fin.ofNat w (vx % w + c)) (Fin.ofNat h (vy % h + r))

theorem ToggledBy.foldl_drawPixel (hd : ToggledBy d k acc) (bits : Byte) (cs : List Nat) :
    ToggledBy d (fun X Y => k X Y + cs.countP (bitOver w h vx vy r bits X Y))
      (cs.foldl (Machine.drawPixel (vx % w) (vy % h) r bits) acc) := by
  induction cs generalizing k acc with
  | nil => exact hd
  | cons c cs ih => simpa only [List.countP_cons, List.foldl_cons, add_right_comm, add_assoc] using ih (hd.drawPixel bits c)

variable {row : Nat → Byte}

theorem ToggledBy.drawRow (hd : ToggledBy d (coverCount w h vx vy row r) acc) :
    ToggledBy d (coverCount w h vx vy row (r + 1)) (drawRow (vx % w) (vy % h) r (row r) acc) := by
  have hcount : coverCount w h vx vy row (r + 1) = fun X Y =>
      coverCount w h vx vy row r X Y + (List.range 8).countP (bitOver w h vx vy r (row r) X Y) :=
    funext fun X => funext fun Y => coverCount_succ w h vx vy row r X Y
  rw [hcount]
  exact hd.foldl_drawPixel (row r) (List.range 8)

/-- The outer loop, from row `r` on; `row` numbers the rows of the whole sprite. -/
theorem ToggledBy.drawRows {sprite : List Byte} (hd : ToggledBy d (coverCount w h vx vy row r) acc)
    (hrow : ∀ (j : Nat) (hj : j < sprite.length), sprite[j] = row (r + j)) :
    ToggledBy d (coverCount w h vx vy row (r + sprite.length)) (drawRows (vx % w) (vy % h) r sprite acc) := by
  induction sprite generalizing r acc with
  | nil => exact hd
  | cons bits rest ih =>
    obtain rfl : bits = row r := hrow 0 (Nat.succ_pos _)
    rw [drawRows_cons, List.length_cons, ← Nat.add_assoc, Nat.add_right_comm]
    refine ih hd.drawRow fun j hj => ?_
    rw [Nat.add_right_comm]
    exact hrow (j + 1) (Nat.succ_lt_succ hj)

theorem toggledBy_blit {sprite : List Byte} (hrow : ∀ (j : Nat) (hj : j < sprite.length), sprite[j] = row j)
    (d : Grid w h) : ToggledBy d (coverCount w h vx vy row sprite.length) (blit vx vy sprite d) := by
  have hd := ToggledBy.drawRows (vx := vx) (vy := vy) (r := 0) (toggledBy_zero d)
    fun j hj => (hrow j hj).trans (congrArg row (Nat.zero_add j).symm)
  rw [Nat.zero_add] at hd
  exact hd

end Loops

/-- Settles O60: the loops toggle each pixel as often as `coverCount` says. -/
theorem blitOnAnyGridTogglesEachPixelOncePerCoveringBit :
    Obligations.BlitOnAnyGridTogglesEachPixelOncePerCoveringBit := by
  unfold Obligations.BlitOnAnyGridTogglesEachPixelOncePerCoveringBit
  intro w h vx vy _ _ sprite d
  have hd := toggledBy_blit (vx := vx) (vy := vy) (row := fun r => sprite.getD r 0)
    (fun _ _ => List.getElem_eq_getD 0) d
  exact ⟨hd.changed_iff, hd.collide⟩

/-! ### Grids that no sprite laps (R128 (f)) -/

/-- On a circle of `m` places, two steps shorter than the circle to the same place are the same. -/
theorem add_mod_injOn {m v a b : Nat} (ha : a < m) (hb : b < m) (heq : (v + a) % m = (v + b) % m) : a = b :=
  (Nat.ModEq.add_left_cancel' v heq).eq_of_lt_of_lt ha hb

theorem countP_range_le_one {n : Nat} {p : Nat → Bool} (hp : ∀ a < n, ∀ b < n, p a = true → p b = true → a = b) :
    (List.range n).countP p ≤ 1 := by
  have hcard : Nat.count (p · = true) n ≤ 1 := by
    rw [Nat.count_eq_card_filter_range, Finset.card_le_one]
    simp only [Finset.mem_filter, Finset.mem_range]
    exact fun a ⟨ha, hpa⟩ b ⟨hb, hpb⟩ => hp a ha b hb hpa hpb
  simpa [Nat.count] using hcard

/-- A row puts no two of its 8 columns, and a sprite no two of its rows, over one pixel. -/
theorem coverCount_le_one {vx vy n : Nat} {row : Nat → Byte} (hw : 8 ≤ w) (hn : n ≤ h) (X Y : Nat) :
    coverCount w h vx vy row n X Y ≤ 1 := by
  induction n with
  | zero => exact Nat.zero_le _
  | succ n ih =>
    rw [coverCount_succ]
    by_cases hY : Y = (vy + n) % h
    case pos =>
      have hbefore : coverCount w h vx vy row n X Y = 0 := by
        by_contra hpos
        obtain ⟨r, c, hr, -, -, -, hYr⟩ := (coverCount_pos_iff w h vx vy row n X Y).mp (Nat.one_le_iff_ne_zero.mpr hpos)
        have := add_mod_injOn (by omega) (by omega) (hYr.symm.trans hY)
        omega
      rw [hbefore, Nat.zero_add]
      refine countP_range_le_one fun a ha b hb hpa hpb => ?_
      simp only [Bool.and_eq_true, beq_iff_eq] at hpa hpb
      obtain ⟨⟨-, hXa⟩, -⟩ := hpa
      obtain ⟨⟨-, hXb⟩, -⟩ := hpb
      exact add_mod_injOn (by omega) (by omega) (hXa.symm.trans hXb)
    case neg => simpa [beq_false_of_ne hY] using ih (by omega)

theorem blit_covers [NeZero w] [NeZero h] {vx vy : Nat} {row : Nat → Byte} {sprite : List Byte} (hw : 8 ≤ w)
    (hh : sprite.length ≤ h) (hrow : ∀ (j : Nat) (hj : j < sprite.length), sprite[j] = row j) (d : Grid w h) :
    (∀ (X : Fin w) (Y : Fin h), getPixel (blit vx vy sprite d).1 X Y ≠ getPixel d X Y ↔
      SpriteCovers w h vx vy row sprite.length X Y) ∧
    ((blit vx vy sprite d).2 = true ↔ ∃ (X : Fin w) (Y : Fin h), getPixel d X Y = true ∧
      SpriteCovers w h vx vy row sprite.length X Y) := by
  have hd := toggledBy_blit (vx := vx) (vy := vy) hrow d
  have hone := coverCount_le_one (vx := vx) (vy := vy) (row := row) hw hh
  refine ⟨fun X Y => ?changed, hd.collide.trans (exists_congr fun X => exists_congr fun Y => ?collide)⟩
  all_goals
    rw [← coverCount_pos_iff]
    have := hone X Y
  case changed => rw [hd.changed_iff]; omega
  case collide => exact or_iff_left (by omega)

/-- Settles O27: the pixels that are toggled once, and no pixel is toggled twice. -/
theorem blitTurnsOverExactlyTheCoveredPixels : Obligations.BlitTurnsOverExactlyTheCoveredPixels := by
  unfold Obligations.BlitTurnsOverExactlyTheCoveredPixels
  intro w h vx vy _ _ sprite d hw hh
  exact blit_covers hw hh (fun _ _ => List.getElem_eq_getD 0) d

end Sys2Proof.Machine
end

section
/-! Clear and Draw (40_display.md R121, R125 to R128): Draw on the 64 by 32 display, which no sprite laps, and a second
Draw, which is a first one on the display that the first left. -/

namespace Sys2Proof.Machine

open Sys2Proof Sys2Proof.Config

/-- Settles O26: Clear writes the blank grid to DISP. -/
theorem clearTurnsEveryPixelOff : Obligations.ClearTurnsEveryPixelOff := by
  unfold Obligations.ClearTurnsEveryPixelOff
  intro s
  exact ⟨_, rfl, getPixel_blankGrid, (SameExcept.refl _ s).setDisp _⟩

theorem exec_draw_of_inRange {s : State} {n : RowCount} (x y : Reg) (hin : n.val = 0 ∨ s.i.toNat + n.val ≤ 4096) :
    exec (.draw x y n) s = .next (drawSprite x y s (s.mem.readBytes s.i.toNat n.val)) :=
  exec_eq_next_of_completion (congrArg (Option.map _) (memRead_of_inRange s.mem hin))

theorem readV_flagReg_drawSprite (x y : Reg) (s : State) (sprite : List Byte) :
    (drawSprite x y s sprite).readV 15 = flagByte (blit (s.readV x).toNat (s.readV y).toNat sprite s.disp).2 :=
  (State.readV_setV ..).trans (if_pos rfl)

/-- Settles O28: the renderer on the display, with the bytes at I as the sprite's rows. -/
theorem drawXorsTheSpriteAndReportsCollision : Obligations.DrawXorsTheSpriteAndReportsCollision := by
  unfold Obligations.DrawXorsTheSpriteAndReportsCollision
  intro s x y n hin
  have hlength := Memory.length_readBytes s.mem s.i.toNat n.val
  obtain ⟨hchanged, hcollide⟩ := blit_covers (w := 64) (h := 32) (vx := (s.readV x).toNat) (vy := (s.readV y).toNat)
    (row := fun r => s.readByte (s.i.toNat + r)) (by omega) (by omega) (Memory.getElem_readBytes s.mem s.i.toNat n.val) s.disp
  rw [hlength] at hchanged hcollide
  refine ⟨_, exec_draw_of_inRange x y hin, hchanged, ?flag, fun z hz => ?others, ?frame⟩
  case flag =>
    rw [readV_flagReg_drawSprite]
    cases hflag : (blit (s.readV x).toNat (s.readV y).toNat (s.mem.readBytes s.i.toNat n.val) s.disp).2
    case true =>
      obtain ⟨X, Y, hon, hcovers⟩ := hcollide.mp hflag
      have hturned := (hchanged X Y).mpr hcovers
      exact .inl ⟨rfl, X, Y, hon, eq_false_of_ne_true fun hstays => hturned (hstays.trans hon.symm)⟩
    case false =>
      refine .inr ⟨rfl, fun X Y hon => ?_⟩
      by_contra hoff
      have hcovers := (hchanged X Y).mp fun hstays => hoff (hstays.trans hon)
      exact absurd (hcollide.mpr ⟨X, Y, hon, hcovers⟩) (by simp [hflag])
  case others => exact (State.readV_setV ..).trans (if_neg hz)
  case frame => exact ((SameExcept.refl _ s).setDisp _).setV _ _

/-- Two sprites with the same rows cover the same pixels. -/
theorem spriteCovers_congr {w h vx vy n X Y : Nat} {row row' : Nat → Byte} (hrow : ∀ r < n, row r = row' r) :
    SpriteCovers w h vx vy row n X Y ↔ SpriteCovers w h vx vy row' n X Y := by
  unfold SpriteCovers
  refine exists_congr fun r => exists_congr fun c => and_congr_right fun hr => ?_
  rw [hrow r hr]

/-- A sprite with a byte other than 0 has a 1 bit, and so covers a pixel. -/
theorem exists_spriteCovers {w h n r : Nat} [NeZero w] [NeZero h] (vx vy : Nat) {row : Nat → Byte} (hr : r < n)
    (hbyte : row r ≠ 0) : ∃ (X : Fin w) (Y : Fin h), SpriteCovers w h vx vy row n X Y := by
  obtain ⟨j, hj, hbit⟩ : ∃ j < 8, (row r).getLsbD j = true := by
    by_contra hnone
    exact hbyte (BitVec.eq_of_getLsbD_eq fun j hj => by simpa using fun hbit => hnone ⟨j, hj, hbit⟩)
  refine ⟨Fin.ofNat w (vx + (7 - j)), Fin.ofNat h (vy + r), r, 7 - j, hr, by omega, ?_, rfl, rfl⟩
  rwa [show 7 - (7 - j) = j by omega]

/-- A pixel that two Draws both turn over, or both leave, is as before the first. -/
theorem eq_of_turned_over_alike : ∀ {first between last : Bool},
    (last ≠ between ↔ between ≠ first) → last = first := by decide

/-- Settles O29: both Draws turn the same pixels over. -/
theorem drawingTwiceRestoresTheDisplay : Obligations.DrawingTwiceRestoresTheDisplay := by
  unfold Obligations.DrawingTwiceRestoresTheDisplay
  intro s t u x y n hin hexec hdisp hi hx hy hbytes
  obtain ⟨t', hexec', hfirst, -⟩ := drawXorsTheSpriteAndReportsCollision s x y n hin
  cases hexec.symm.trans hexec'
  obtain ⟨v, hv, hsecond, hflag, -⟩ := drawXorsTheSpriteAndReportsCollision u x y n (hi ▸ hin)
  rw [hdisp, hx, hy, hi] at hsecond
  rw [hdisp] at hflag
  have hrestored : v.disp = s.disp := by
    refine grid_ext fun X Y => ?_
    exact eq_of_turned_over_alike ((hsecond X Y).trans ((spriteCovers_congr hbytes).trans (hfirst X Y).symm))
  rw [hrestored] at hflag
  have hvf : v.readV 15 = 1 ↔ ∃ (X : Fin displayW) (Y : Fin displayH),
      getPixel s.disp X Y = false ∧ getPixel t.disp X Y = true := by
    obtain ⟨hone, X, Y, hon, hoff⟩ | ⟨hzero, hkept⟩ := hflag
    · exact iff_of_true hone ⟨X, Y, hoff, hon⟩
    · refine iff_of_false (by simp [hzero]) ?_
      rintro ⟨X, Y, hoff, hon⟩
      exact absurd ((hkept X Y hon).symm.trans hoff) (by simp)
  refine ⟨v, hv, hrestored, hvf, fun hclear hbit => hvf.mpr ?_⟩
  obtain ⟨r, hr, hbyte⟩ := hbit
  obtain ⟨X, Y, hcovers⟩ := exists_spriteCovers (w := 64) (h := 32) (s.readV x).toNat (s.readV y).toNat
    (row := fun r => s.readByte (s.i.toNat + r)) hr hbyte
  have hturned := (hfirst X Y).mpr hcovers
  rw [hclear] at hturned
  exact ⟨X, Y, hclear X Y, by simpa using hturned⟩

end Sys2Proof.Machine
end

section
/-! Which instructions raise, and when (60_exceptions.md R260, R263). -/

namespace Sys2Proof.Machine

open Sys2Proof Sys2Proof.Config

variable {i : Instr} {s t : State}

theorem pushPc_eq_none_iff : pushPc s = none ↔ s.sp.val = 16 := by
  obtain ⟨hroom, heq⟩ | ⟨hfull, heq⟩ := pushPc_cases s
  · simpa [heq] using hroom.ne
  · simpa [heq] using hfull

theorem popPc_eq_none_iff : popPc s = none ↔ s.sp.val = 0 := by
  obtain ⟨hpos, heq⟩ | ⟨hempty, heq⟩ := popPc_cases s
  · simpa [heq] using hpos.ne'
  · simpa [heq] using hempty

/-- An instruction that completes leaves FAULT none, and one that raises does not. -/
theorem fault_ne_none_iff (hf : s.fault = none) (h : exec i s = .next t) : t.fault ≠ none ↔ completion i s = none := by
  obtain hdone | ⟨hraised, rfl⟩ := exec_cases h
  · simp [fault_of_completion hdone, hf, hdone]
  · exact iff_of_true (Option.some_ne_none _) hraised

/-- Settles O19: the check of each instruction that has one. -/
theorem instructionsRaiseExactlyOnTheirCheck : Obligations.InstructionsRaiseExactlyOnTheirCheck := by
  unfold Obligations.InstructionsRaiseExactlyOnTheirCheck
  intro s t i hf h
  rw [fault_ne_none_iff (s := advancePc s) hf h]
  cases i with
  | ret => simp [completion, popPc_eq_none_iff]
  | call nnn => simp [completion, pushPc_eq_none_iff]
  | draw x y n => simp [completion, memRead_eq_none_iff, indexAddress, Nat.one_le_iff_ne_zero]
  | loadBinaryCodedDecimal x => simp [completion, memWrite_eq_none_iff, indexAddress, decimalDigits]
  | loadMemoryRegisters x => simp [completion, memWrite_eq_none_iff, indexAddress, ← Nat.add_assoc]
  | loadRegistersMemory x => simp [completion, memRead_eq_none_iff, indexAddress, ← Nat.add_assoc]
  -- the others have no check
  | _ => exact iff_of_false (Option.some_ne_none _) (by simp)

end Sys2Proof.Machine
end

section
/-! Control flow (41_control_flow.md R140 to R151) and the key skips (44_keypad_timers.md R231 to R233): the returns, the
jumps and the skips by the rules of their operations, and the two runs that a Step only carries on, zero words and a
self-jump. -/

namespace Sys2Proof.Machine

open Sys2Proof Sys2Proof.Config

variable {s t : State}

/-! ### Zero words as no-ops (R142, R298) -/

theorem step_of_zeroWord (hf : s.fault = none) (hw : s.kwait = none) (hin : s.pc.toNat + 2 ≤ 4096)
    (hhigh : s.readByte s.pc.toNat = 0) (hlow : s.readByte (s.pc.toNat + 1) = 0) : step s = .next (advancePc s) := by
  have hword : s.mem.wordAt s.pc.toNat = opcodeOfBytes 0 0 := congrArg₂ opcodeOfBytes hhigh hlow
  have hsys : decodeWord (s.mem.wordAt s.pc.toNat) = .ok (.sys 0x000#12) := by rw [hword]; rfl
  rw [step_eq_cycle hf hw, cycle_of_decode_ok hin hsys]
  rfl

theorem run_succ_of_next (k : Nat) (h : step s = .next t) : core.run (k + 1) s = core.run k t := by
  have hstep : core.step s = .next t := h
  simp only [Host.Core.run, hstep]

/-- The run is exact: PC alone has moved, two bytes a word. -/
theorem run_zeroWords (k : Nat) (hf : s.fault = none) (hw : s.kwait = none) (hin : s.pc.toNat + 2 * k ≤ 4096)
    (hzero : ∀ a : Nat, s.pc.toNat ≤ a → a < s.pc.toNat + 2 * k → s.readByte a = 0) :
    core.run k s = .next (s.setPc (s.pc + BitVec.ofNat 16 (2 * k))) := by
  induction k generalizing s with
  | zero => rw [Nat.mul_zero, BitVec.add_zero]; rfl
  | succ k ih =>
    have hfirst : step s = .next (advancePc s) :=
      step_of_zeroWord hf hw (by omega) (hzero _ (by omega) (by omega)) (hzero _ (by omega) (by omega))
    have hpc : (advancePc s).pc.toNat = s.pc.toNat + 2 := by
      rw [advancePc_pc, BitVec.toNat_add, BitVec.toNat_ofNat]
      omega
    have hrest : core.run k (advancePc s) = .next ((advancePc s).setPc ((advancePc s).pc + BitVec.ofNat 16 (2 * k))) :=
      ih hf hw (by omega) fun a hle hlt => hzero a (by omega) (by omega)
    have hdistance : (advancePc s).pc + BitVec.ofNat 16 (2 * k) = s.pc + BitVec.ofNat 16 (2 * (k + 1)) := by
      rw [advancePc_pc, BitVec.add_assoc, BitVec.ofNat_add_ofNat, Nat.mul_succ, Nat.add_comm]
    rw [run_succ_of_next k hfirst, hrest, hdistance]
    rfl

/-- Settles O24: PC does not leave memory on the way, so it does not wrap. -/
theorem zeroWordsRunAsNoOps : Obligations.ZeroWordsRunAsNoOps := by
  unfold Obligations.ZeroWordsRunAsNoOps
  intro k s hf hw hin hzero
  refine ⟨_, run_zeroWords k hf hw hin hzero, ?_, (SameExcept.refl _ s).setPc _⟩
  rw [State.setPc_pc, BitVec.toNat_add, BitVec.toNat_ofNat]
  omega

/-! ### A call and its return -/

/-- Settles O34: the Return pops the entry that the Call has pushed. -/
theorem returnUndoesCall : Obligations.ReturnUndoesCall := by
  unfold Obligations.ReturnUndoesCall
  intro s t u nnn hroom hcall hsp hstack
  obtain ⟨t', hcall', -, hdepth, hpushed, -⟩ := callPushesTheReturnAddress (advancePc s) nnn hroom
  cases hcall.symm.trans hcall'
  obtain ⟨v, hret, hpc, hpopped, -⟩ := returnPopsIntoPc u ⟨s.sp.val, hroom⟩ (hsp ▸ hdepth)
  refine ⟨v, hret, ?_, Fin.ext hpopped⟩
  rw [hpc, hstack, hpushed]
  exact if_pos rfl

/-! ### The end of a run (R304, log 27) -/

theorem exists_selfJump_of_finished (h : s.finished = true) : s.fault = none ∧ s.kwait = none ∧
    s.pc.toNat + 2 ≤ memSize ∧ ∃ nnn, decodeWord (s.mem.wordAt s.pc.toNat) = .ok (.jump nnn) ∧ addrWord nnn = s.pc := by
  simp only [State.finished, Bool.and_eq_true, Option.isNone_iff_eq_none] at h
  obtain ⟨⟨hf, hw⟩, hjump⟩ := h
  obtain ⟨hin, hfetch⟩ | ⟨-, hfetch⟩ := fetchWord_cases s <;> rw [hfetch] at hjump
  case inr => cases hjump
  case inl =>
    refine ⟨hf, hw, hin, ?_⟩
    split at hjump
    case h_1 hnone => cases hnone
    case h_2 hsome =>
      cases hsome
      split at hjump
      case h_1 nnn hdecode => exact ⟨nnn, hdecode, by simpa using hjump⟩
      case h_2 => cases hjump

/-- Settles O25: the jump puts PC back to A, which undoes the cycle's advance. -/
theorem aFinishedRunStaysFinished : Obligations.AFinishedRunStaysFinished := by
  unfold Obligations.AFinishedRunStaysFinished
  intro s hend
  obtain ⟨hf, hw, hin, nnn, hdecode, hself⟩ := exists_selfJump_of_finished hend
  have hjump : exec (.jump nnn) (advancePc s) = .next ((advancePc s).setPc (addrWord nnn)) := rfl
  rw [step_eq_cycle hf hw, cycle_of_decode_ok hin hdecode, hjump, hself, setPc_advancePc]

/-! ### Sys, Jump and LoadI -/

/-- Settles O30: Sys answers the state it is given. -/
theorem sysChangesNothing : Obligations.SysChangesNothing := by
  unfold Obligations.SysChangesNothing
  exact fun s nnn => ⟨s, rfl, .refl _ s⟩

/-- Settles O31: one write each, of the zero-extended field. -/
theorem jumpAndLoadIWriteTheAddress : Obligations.JumpAndLoadIWriteTheAddress := by
  unfold Obligations.JumpAndLoadIWriteTheAddress
  intro s nnn
  refine ⟨⟨_, rfl, ?jump, (SameExcept.refl _ s).setPc _⟩, ⟨_, rfl, ?loadI, (SameExcept.refl _ s).setI _⟩⟩
  case jump => exact toNat_addrWord nnn
  case loadI => exact toNat_addrWord nnn

/-! ### Skips (R146) -/

/-- Seen from A, a skip is one write of PC: the cycle's advance, and a second one when the condition holds. -/
theorem skipIf_advancePc (c : Bool) (s : State) :
    skipIf c (advancePc s) = s.setPc (s.pc + if c then 4 else 2) := by
  cases c with
  | false => rfl
  | true =>
    have htwice : s.pc + 2#16 + 2#16 = s.pc + 4 := BitVec.add_assoc ..
    exact congrArg s.setPc htwice

/-- What an instruction that is a skip answers, with its distance `d` as the statement at hand words it. -/
theorem exists_skip {i : Instr} {c : Bool} {d : Word} (h : exec i (advancePc s) = .next (skipIf c (advancePc s)))
    (hd : (if c then 4 else 2) = d) :
    ∃ t, exec i (advancePc s) = .next t ∧ t.pc = s.pc + d ∧ SameExcept [.pc] s t := by
  rw [skipIf_advancePc, hd] at h
  exact ⟨_, h, rfl, (SameExcept.refl _ s).setPc _⟩

/-- Settles O36: the four skips, two on equality and two on inequality. -/
theorem registerSkipsMovePcOnTheirCondition : Obligations.RegisterSkipsMovePcOnTheirCondition := by
  unfold Obligations.RegisterSkipsMovePcOnTheirCondition
  intro s x y kk
  refine ⟨exists_skip (c := s.readV x == kk) rfl ?_, exists_skip (c := s.readV x != kk) rfl ?_,
    exists_skip (c := s.readV x == s.readV y) rfl ?_, exists_skip (c := s.readV x != s.readV y) rfl ?_⟩
  · simp
  · simp
  · simp
  · simp

theorem keyOperand_eq {x : Reg} {k : Key} (hk : k.val = (s.readV x).toNat % 16) : keyOperand s x = k :=
  Fin.ext ((val_nibbleOf _).trans hk.symm)

/-- Settles O37: the key is the low nibble's, and its level is one of two. -/
theorem keySkipsTestTheKeyOfTheLowNibble : Obligations.KeySkipsTestTheKeyOfTheLowNibble := by
  unfold Obligations.KeySkipsTestTheKeyOfTheLowNibble
  intro s x k hk
  rw [← keyOperand_eq hk]
  refine ⟨exists_skip (c := s.readKey (keyOperand s x) == .pressed) rfl ?_,
    exists_skip (c := s.readKey (keyOperand s x) == .released) rfl ?_⟩
  · simp
  · cases s.readKey (keyOperand s x) <;> rfl

end Sys2Proof.Machine
end

section
/-! Register file and ALU (42_alu.md R170 to R182): the forms that write V[x] alone, then those that write a result to V[x]
and its flag to VF last (R177). -/

namespace Sys2Proof.Machine

open Sys2Proof Sys2Proof.Config

/-! ### One register written -/

theorem State.readV_setV_self (s : State) (x : Reg) (b : Byte) : (s.setV x b).readV x = b :=
  (State.readV_setV ..).trans (if_pos rfl)

theorem frame_setV (s : State) (x : Reg) (b : Byte) :
    RegistersSameExcept (· = x) s (s.setV x b) ∧ SameExcept [.v] s (s.setV x b) :=
  ⟨fun _ hy => (State.readV_setV ..).trans (if_neg hy), (SameExcept.refl _ s).setV x b⟩

/-- Settles O39: a byte's sum is taken modulo 256, and V[x] is the one register written. -/
theorem immediateFormsWriteOnlyVx : Obligations.ImmediateFormsWriteOnlyVx := by
  unfold Obligations.ImmediateFormsWriteOnlyVx
  intro s x kk
  refine ⟨⟨_, rfl, State.readV_setV_self s x kk, frame_setV s x kk⟩, ⟨_, rfl, ?sum, frame_setV s x (s.readV x + kk)⟩⟩
  case sum => rw [State.readV_setV_self, BitVec.toNat_add]

/-- Settles O40: one write of V[x]. -/
theorem loadCopiesVyToVx : Obligations.LoadCopiesVyToVx := by
  unfold Obligations.LoadCopiesVyToVx
  exact fun s x y => ⟨_, rfl, State.readV_setV_self s x (s.readV y), frame_setV s x (s.readV y)⟩

/-- Settles O41: one write of V[x] each, of the bitwise operation on bytes. -/
theorem logicOperationsWorkBitByBit : Obligations.LogicOperationsWorkBitByBit := by
  unfold Obligations.LogicOperationsWorkBitByBit
  intro s x y
  refine ⟨⟨_, rfl, fun k _ => ?or, frame_setV s x _⟩, ⟨_, rfl, fun k _ => ?and, frame_setV s x _⟩,
    ⟨_, rfl, fun k _ => ?xor, frame_setV s x _⟩⟩
  case or => rw [State.readV_setV_self, BitVec.getLsbD_or]
  case and => rw [State.readV_setV_self, BitVec.getLsbD_and]
  case xor => rw [State.readV_setV_self, BitVec.getLsbD_xor]

/-! ### A result and its flag written (R177) -/

theorem flagReg_eq : flagReg = 15 := rfl

/-- All that the two writes do, with the values of the result and of the flag as the statement at hand words them. -/
theorem result_flag_frame_writeResultThenFlag {x : Reg} {result : Byte} {flag : Bool} {n m : Nat} (s : State)
    (hresult : result.toNat = n) (hflag : (flagByte flag).toNat = m) :
    (x ≠ 15 → ((writeResultThenFlag x result flag s).readV x).toNat = n) ∧
    ((writeResultThenFlag x result flag s).readV 15).toNat = m ∧
    RegistersSameExcept (fun r => r = x ∨ r = 15) s (writeResultThenFlag x result flag s) ∧
    SameExcept [.v] s (writeResultThenFlag x result flag s) := by
  refine ⟨fun hx => ?result, ?flag, fun r hr => ?others, ((SameExcept.refl _ s).setV x result).setV _ _⟩
  case result => rw [readV_writeResultThenFlag, flagReg_eq, if_neg hx, if_pos rfl, hresult]
  case flag => rw [readV_writeResultThenFlag, flagReg_eq, if_pos rfl, hflag]
  case others =>
    obtain ⟨hx, hvf⟩ := not_or.mp hr
    rw [readV_writeResultThenFlag, flagReg_eq, if_neg hvf, if_neg hx]

/-! ### The flags as numbers (R170) -/

theorem toNat_flagByte_of_iff {flag : Bool} {p : Prop} [Decidable p] (h : flag = true ↔ p) :
    (flagByte flag).toNat = if p then 1 else 0 := by
  simp only [flagByte, h, apply_ite BitVec.toNat, BitVec.toNat_ofNat, Nat.zero_mod, Nat.reducePow, Nat.reduceMod]

theorem toNat_flagByte_carryOut (a b : Byte) : (flagByte (carryOut a b)).toNat = (a.toNat + b.toNat) / 256 := by
  rw [toNat_flagByte_of_iff (carryOut_iff a b)]
  split <;> omega

theorem toNat_flagByte_shiftedOutRight (a : Byte) : (flagByte (shiftedOutRight a)).toNat = a.toNat % 2 := by
  rw [toNat_flagByte_of_iff (shiftedOutRight_iff a)]
  split <;> omega

theorem toNat_flagByte_shiftedOutLeft (a : Byte) : (flagByte (shiftedOutLeft a)).toNat = a.toNat / 128 := by
  rw [toNat_flagByte_of_iff (shiftedOutLeft_iff a)]
  split <;> omega

/-! ### The results as numbers (R170) -/

theorem toNat_byte_sub (a b : Byte) : (a - b).toNat = (a.toNat + 256 - b.toNat) % 256 := by
  rw [BitVec.toNat_sub]
  omega

theorem toNat_byte_shiftRight_one (a : Byte) : (a >>> 1).toNat = a.toNat / 2 := by
  rw [BitVec.toNat_ushiftRight, Nat.shiftRight_eq_div_pow]

theorem toNat_byte_shiftLeft_one (a : Byte) : (a <<< 1).toNat = a.toNat * 2 % 256 := by
  rw [BitVec.toNat_shiftLeft, Nat.shiftLeft_eq]

/-! ### The five instructions -/

/-- Settles O42, with the carry as the sum's ninth bit. -/
theorem addWritesSumThenCarry : Obligations.AddWritesSumThenCarry := by
  unfold Obligations.AddWritesSumThenCarry
  exact fun s x y =>
    ⟨_, rfl, result_flag_frame_writeResultThenFlag s (BitVec.toNat_add ..) (toNat_flagByte_carryOut ..)⟩

/-- Settles O43, with the flag set when nothing is borrowed. -/
theorem subWritesDifferenceThenNoBorrow : Obligations.SubWritesDifferenceThenNoBorrow := by
  unfold Obligations.SubWritesDifferenceThenNoBorrow
  exact fun s x y =>
    ⟨_, rfl, result_flag_frame_writeResultThenFlag s (toNat_byte_sub ..) (toNat_flagByte_of_iff (noBorrow_iff ..))⟩

/-- Settles O44, as O43 with the operands exchanged. -/
theorem subNegatedWritesReverseDifference : Obligations.SubNegatedWritesReverseDifference := by
  unfold Obligations.SubNegatedWritesReverseDifference
  exact fun s x y =>
    ⟨_, rfl, result_flag_frame_writeResultThenFlag s (toNat_byte_sub ..) (toNat_flagByte_of_iff (noBorrow_iff ..))⟩

theorem shiftOperand_eq (src : ShiftSrc) (s : State) (x y : Reg) :
    shiftOperand src s x y = s.readV (if src = .vx then x else y) := by
  cases src <;> rfl

/-- Settles O45: either source is read before V[x] and VF are written; the instructions' own source is VX. -/
theorem shiftsMoveOneBitIntoVF : Obligations.ShiftsMoveOneBitIntoVF := by
  unfold Obligations.ShiftsMoveOneBitIntoVF
  refine ⟨fun s x y src a ha => ?shifts, fun s x y => ⟨rfl, rfl⟩⟩
  rw [← shiftOperand_eq] at ha
  subst ha
  obtain ⟨hresult, hflag, hregs, hparts⟩ := result_flag_frame_writeResultThenFlag (x := x) s
    (toNat_byte_shiftRight_one (shiftOperand src s x y)) (toNat_flagByte_shiftedOutRight (shiftOperand src s x y))
  exact ⟨hresult, hflag, hregs, hparts, result_flag_frame_writeResultThenFlag s
    (toNat_byte_shiftLeft_one (shiftOperand src s x y)) (toNat_flagByte_shiftedOutLeft (shiftOperand src s x y))⟩

end Sys2Proof.Machine
end

section
/-! Index register and memory transfers (43_index_memory.md R202 to R207): the two sums that go to I, the three decimal
digits stored through I, and a block load from where a block store put the registers. -/

namespace Sys2Proof.Machine

open Sys2Proof Sys2Proof.Config

/-! ### Writes of I -/

theorem toNat_glyphAddress (d : Fin 16) : (glyphAddress fontBase d).toNat = 5 * d.val := by
  rw [glyphAddress, BitVec.toNat_ofNat, fontBase, fontStride]
  omega

/-- Settles O47: the glyph's address is read through the reset contents, which are the font from address 0 on. -/
theorem addIAndLoadSpriteWriteI : Obligations.AddIAndLoadSpriteWriteI := by
  unfold Obligations.AddIAndLoadSpriteWriteI
  intro s x
  have hglyph : (glyphAddress fontBase (nibbleOf (s.readV x))).toNat = 5 * ((s.readV x).toNat % 16) := by
    rw [toNat_glyphAddress, val_nibbleOf]
  refine ⟨⟨_, rfl, ?sum, (SameExcept.refl _ s).setI _⟩, ⟨_, rfl, hglyph, (SameExcept.refl _ s).setI _, fun r _ => ?font⟩⟩
  case sum => rw [State.setI_i, BitVec.toNat_add, toNat_byteWord]
  case font =>
    rw [State.setI_i, hglyph]
    exact unlistedByte_eq _

/-! ### Decimal digits (R205) -/

theorem toNat_hundredsDigit (b : Byte) : ((decimalDigits b).getD 0 0).toNat = b.toNat / 100 := BitVec.toNat_udiv

theorem toNat_tensDigit (b : Byte) : ((decimalDigits b).getD 1 0).toNat = b.toNat / 10 % 10 :=
  BitVec.toNat_umod.trans (congrArg (· % 10) BitVec.toNat_udiv)

theorem toNat_onesDigit (b : Byte) : ((decimalDigits b).getD 2 0).toNat = b.toNat % 10 := BitVec.toNat_umod

/-- Settles O48: the three digits read back from the memory that MemWrite answers make up V[x] again. -/
theorem bcdStoresTheThreeDigits : Obligations.BcdStoresTheThreeDigits := by
  unfold Obligations.BcdStoresTheThreeDigits
  intro s x hin
  obtain ⟨-, hwrites⟩ := memReadAndMemWriteCheckThenAccess s.mem s.i.toNat
  obtain ⟨m, hwrite, hread⟩ := (hwrites (decimalDigits (s.readV x))).1 (.inr hin)
  have hdone : completion (.loadBinaryCodedDecimal x) s = some (s.setMem m) := congrArg (Option.map _) hwrite
  have hdigit : ∀ j < 3, (s.setMem m).readByte (s.i.toNat + j) = (decimalDigits (s.readV x)).getD j 0 := by
    intro j hj
    exact (hread _).trans ((if_pos ⟨Nat.le_add_right _ j, Nat.add_lt_add_left hj _⟩).trans
      (congrArg ((decimalDigits (s.readV x)).getD · 0) (Nat.add_sub_cancel_left _ j)))
  have hhundreds : ((s.setMem m).readByte s.i.toNat).toNat = (s.readV x).toNat / 100 :=
    (congrArg BitVec.toNat (hdigit 0 (by omega))).trans (toNat_hundredsDigit _)
  have htens : ((s.setMem m).readByte (s.i.toNat + 1)).toNat = (s.readV x).toNat / 10 % 10 :=
    (congrArg BitVec.toNat (hdigit 1 (by omega))).trans (toNat_tensDigit _)
  have hones : ((s.setMem m).readByte (s.i.toNat + 2)).toNat = (s.readV x).toNat % 10 :=
    (congrArg BitVec.toNat (hdigit 2 (by omega))).trans (toNat_onesDigit _)
  exact ⟨_, exec_eq_next_of_completion hdone, by omega, by omega, by omega, fun a ha => (hread a).trans (if_neg ha),
    (SameExcept.refl _ s).setMem m⟩

/-! ### Block transfers there and back (R206, R207) -/

/-- Settles O51: the load reads each byte where the store put it. -/
theorem blockLoadUndoesBlockStore : Obligations.BlockLoadUndoesBlockStore := by
  unfold Obligations.BlockLoadUndoesBlockStore
  intro s t u x hin hexec hi hmem
  obtain ⟨⟨_, hstore, hstored, -⟩, -⟩ := blockStoreWritesV0ToVx s x hin
  cases hstore.symm.trans hexec
  obtain ⟨⟨v, hload, hloaded, -⟩, -⟩ := blockLoadReadsV0ToVx u x (hi ▸ hin)
  refine ⟨v, hload, fun j hj => ?_⟩
  calc v.readV j = u.readByte (u.i.toNat + j.val) := hloaded j hj
    _ = t.readByte (s.i.toNat + j.val) := by rw [State.readByte, State.readByte, hmem, hi]
    _ = s.readV j := hstored j hj

end Sys2Proof.Machine
end

section
/-! Keypad and timers (44_keypad_timers.md R234 to R238): the moves between V[x] and a timer, and a key wait that no
KeyDown ends. -/

namespace Sys2Proof.Machine

open Sys2Proof Sys2Proof.Config

/-- Settles O53: one write each, of V[x], DT and ST. -/
theorem timerInstructionsMoveOneByte : Obligations.TimerInstructionsMoveOneByte := by
  unfold Obligations.TimerInstructionsMoveOneByte
  intro s x
  exact ⟨⟨_, rfl, State.readV_setV_self s x s.dt, frame_setV s x s.dt⟩,
    ⟨_, rfl, State.setDt_dt s _, (SameExcept.refl _ s).setDt _⟩,
    ⟨_, rfl, State.setSt_st s _, (SameExcept.refl _ s).setSt _⟩⟩

/-! ### The wait without a key (R236, R272, R276) -/

section Unlatched

variable {s t : State} {x : Reg} (hf : s.fault = none) (hw : s.kwait = some x) (hlatch : s.klatch = none)
include hf hw hlatch

/-- `t` is where the transactions have come to from `s`: still in the wait of `s` with nothing latched, so that a Step is
enabled and its poll answers `t` again. -/
theorem sameExcept_transact_of_unlatched {a : Transaction} (ha : ∀ k : Key, a ≠ .keyDown k)
    (h : SameExcept [.dt, .st, .key] s t) : ∃ u, transact a t = .next u ∧ SameExcept [.dt, .st, .key] s u := by
  cases a with
  | step =>
    have hstep : step t = .next (keyWaitPoll x t) :=
      step_eq_of_waiting ((h .fault (by simp)).trans hf) ((h .kwait (by simp)).trans hw)
    rw [keyWaitPoll_of_unlatched x ((h .klatch (by simp)).trans hlatch)] at hstep
    exact ⟨t, hstep, h⟩
  | tick => exact ⟨_, rfl, (h.setDt _).setSt _⟩
  | keyUp k => exact ⟨_, rfl, h.setKey k _⟩
  | keyDown k => exact absurd rfl (ha k)

theorem runTransactions_of_unlatched {ts : List Transaction} (hts : ∀ k : Key, .keyDown k ∉ ts)
    (h : SameExcept [.dt, .st, .key] s t) : ∃ u, runTransactions ts t = .next u ∧ SameExcept [.dt, .st, .key] s u := by
  induction ts generalizing t with
  | nil => exact ⟨t, rfl, h⟩
  | cons a ts ih =>
    have ha : ∀ k : Key, a ≠ .keyDown k := fun k => (List.ne_of_not_mem_cons (hts k)).symm
    obtain ⟨u, hfirst, hframe⟩ := sameExcept_transact_of_unlatched hf hw hlatch ha h
    rw [runTransactions_cons_of_next hfirst]
    exact ih (fun k => List.not_mem_of_not_mem_cons (hts k)) hframe

end Unlatched

/-- Settles O58, by induction on the list: the wait goes on after each transaction. -/
theorem theWaitLastsUntilAKeyGoesDown : Obligations.TheWaitLastsUntilAKeyGoesDown := by
  unfold Obligations.TheWaitLastsUntilAKeyGoesDown
  exact fun ts s x hf hw hlatch hts => runTransactions_of_unlatched hf hw hlatch hts (.refl _ s)

end Sys2Proof.Machine
end

section
/-! Exceptions (60_exceptions.md R270): the timer tick. -/

namespace Sys2Proof.Machine

open Sys2Proof Sys2Proof.Config

/-- A timer at zero stays there, as the natural number `0 - 1` does; the subtraction of bytes is exact on every other. -/
theorem toNat_countDown (b : Byte) : (countDown b).toNat = b.toNat - 1 := by
  unfold countDown
  split
  case isTrue hzero => simp [hzero]
  case isFalse hne =>
    have hle : 0x01#8 ≤ b := by bv_omega
    exact BitVec.toNat_sub_of_le hle

/-- Settles O54: each timer is written once, from its own value counted down. -/
theorem tickCountsBothTimersDown : Obligations.TickCountsBothTimersDown := by
  unfold Obligations.TickCountsBothTimersDown
  intro s
  rw [tick_eq]
  exact ⟨toNat_countDown s.dt, toNat_countDown s.st, ((SameExcept.refl _ s).setDt _).setSt _⟩

end Sys2Proof.Machine
end
